-- ==== Sys2Proof/Word.lean ====
section
/-! DEFINITION. The data units of the block (00_scope R7): the byte, the 32-bit unsigned integer, the byte
sequence, and the two opaque tokens that pass through the block uninterpreted (R6, R77). -/

namespace Sys2Proof

/-- An 8-bit unsigned value (R7, 20_memory R41). -/
abbrev Byte := BitVec 8

/-- A 32-bit unsigned value (R7). -/
abbrev U32 := BitVec 32

/-- A finite, possibly empty, ordered sequence of bytes (R7, 20_memory R42). -/
abbrev Bytes := List Byte

/-- The timeout operand (R6, R77): handed to the transport unchanged and never inspected.
DESIGN CHOICE (log entry 9): the opaque type is a structure around a token that no meaning reads. -/
structure Duration where
  token : Nat
deriving DecidableEq, Repr, Inhabited

/-- The transport's own failure `x` of `TransportFault(x)` (60_exceptions R156), passed through uninterpreted.
DESIGN CHOICE (log entry 9): a token that no meaning reads. -/
structure FaultCause where
  token : Nat
deriving DecidableEq, Repr, Inhabited

end Sys2Proof
end

