-- ==== Sys2Proof/Config.lean ====
section
/-! DEFINITION. The parameters of the block (00_scope R6), the constants an instance is constructed with, and the
free draws of the transport (20_memory R54, R55). -/

namespace Sys2Proof

/-- The configuration of one instance (00_scope R6): fixed for its life, written by no command. -/
structure Config where
  /-- `START`, the start-of-frame marker (30_encoding R61). -/
  start : Byte
  /-- `START2`, the start-of-data marker, different from `START` (R61). -/
  start2 : Byte
  /-- `BUF_MAX`: `none` is the unbounded buffer of the source (20_memory R57). -/
  bufMax : Option Nat
deriving DecidableEq, Repr

/-- What the transport does with one `TWrite` (20_memory R54, 60_exceptions R156): it returns, or it fails with a
cause of its own after some number of the frame's bytes reached the bus (93_implementation_defined U7). -/
inductive WriteAnswer where
  | done
  | failed (x : FaultCause) (sent : Nat)
deriving DecidableEq, Repr, Inhabited

/-- OPEN parameter `START` (R6, decision D3): the spec gives no number. Log entry 3. -/
opaque Config.startMarker : Byte

/-- `START2` lies this far, plus one, above `START` modulo 256, so that the pair takes every value with
`START != START2` and no other (R6, R61). Log entry 3. -/
opaque Config.markerGap : Fin 255

/-- The address supplied at construction (10_state R21, R31). Log entry 4. -/
opaque Config.address : Byte

/-- The free draw of a `TRead` (20_memory R55, U5): any byte sequence, under no law. Log entry 6. -/
opaque Config.freeRead : Nat → Bytes

/-- The free draw of a `TWrite`'s outcome (20_memory R54, U7). Log entry 7. -/
opaque Config.freeWrite : Nat → WriteAnswer

/-- The configuration `State.reset` is constructed with: the two OPEN markers, and the spec's default `BUF_MAX`
(R6). Log entries 3 and 5. -/
def Config.default : Config where
  start := Config.startMarker
  start2 := Config.startMarker + 1 + BitVec.ofNat 8 Config.markerGap.val
  bufMax := none

end Sys2Proof
end

