-- ==== Sys2Proof/Syntax.lean ====
section
/-! DEFINITION. The sixteen commands (30_encoding R76), one constructor per row of spec/opcode_table.json, and the
request a caller presents on the command port (R75, R77). -/

namespace Sys2Proof

/-- One command with its operands (30_encoding R76, R77). -/
inductive Instr where
  /-- 0x0, 40_frame_build R90. -/
  | buildData (dst : Byte) (payload : Bytes)
  /-- 0x1, 40_frame_build R91. -/
  | buildPing (dst : Byte)
  /-- 0x2, 41_serialize R100. -/
  | serU32 (buf : Bytes) (v : U32)
  /-- 0x3, 41_serialize R101. -/
  | serU32s (buf : Bytes) (vs : List U32)
  /-- 0x4, 41_serialize R102. -/
  | serText (text : Bytes)
  /-- 0x5, 42_checksum R110. -/
  | chkAppend (buf : Bytes)
  /-- 0x6, 42_checksum R111. -/
  | chkVerify (buf : Bytes)
  /-- 0x7, 43_send R120. -/
  | sendData (dst : Byte) (payload : Bytes)
  /-- 0x8, 43_send R121. -/
  | sendPing (dst : Byte)
  /-- 0x9, 43_send R122. -/
  | sendU32 (dst : Byte) (v : U32)
  /-- 0xA, 43_send R123. -/
  | sendU32s (dst : Byte) (vs : List U32)
  /-- 0xB, 43_send R124. -/
  | sendText (dst : Byte) (text : Bytes)
  /-- 0xC, 44_receive R130. -/
  | readRaw (t : Duration)
  /-- 0xD, 44_receive R131. -/
  | accumulate (buf : Bytes) (t : Duration)
  /-- 0xE, 44_receive R132. -/
  | receive (t : Duration)
  /-- 0xF, 44_receive R133. -/
  | rdLast
deriving DecidableEq, Repr

/-- What stands on the command port (30_encoding R75, R77): the command code and one line per operand form.
DESIGN CHOICE (log entry 10): the code line is a byte, wider than `cmd[3:0]`, so that R78's refusal of the values
above 0xF can be said. -/
structure Request where
  code : Byte
  /-- `dst : Byte`. -/
  dst : Byte
  /-- `payload`, `buf` or `text : Bytes`. -/
  bytes : Bytes
  /-- `v : U32`. -/
  value : U32
  /-- `vs`, a sequence of U32. -/
  values : List U32
  /-- `t : Duration`. -/
  timeout : Duration
deriving DecidableEq, Repr

end Sys2Proof
end

