-- ==== Sys2Proof/WellFormed.lean ====
section
/-! DEFINITION. The checks on what is presented to the block: a configuration's two markers differ (00_scope R6),
a request's code is one of the sixteen (30_encoding R78) and the operand lines its command does not have are idle
(R76). There is no check on an `Instr`: its types admit exactly the operands R77 admits, every value of them (R64,
R77, decision D21), so every `Instr` is well-formed. -/

namespace Sys2Proof

/-- `START != START2` (00_scope R6, 70_reset_and_hazards R183). -/
def Config.WellFormed (c : Config) : Bool := c.start != c.start2

/-- The commands with a `dst` operand (30_encoding R76). -/
def usesDst (code : Byte) : Bool :=
  [0x0#8, 0x1#8, 0x7#8, 0x8#8, 0x9#8, 0xA#8, 0xB#8].contains code

/-- The commands with a byte-sequence operand `payload`, `buf` or `text` (R76). -/
def usesBytes (code : Byte) : Bool :=
  [0x0#8, 0x2#8, 0x3#8, 0x4#8, 0x5#8, 0x6#8, 0x7#8, 0xB#8, 0xD#8].contains code

/-- The commands with a `v : U32` operand (R76). -/
def usesValue (code : Byte) : Bool := [0x2#8, 0x9#8].contains code

/-- The commands with a sequence of U32 as operand (R76). -/
def usesValues (code : Byte) : Bool := [0x3#8, 0xA#8].contains code

/-- The commands with a `t : Duration` operand (R76). -/
def usesTimeout (code : Byte) : Bool := [0xC#8, 0xD#8, 0xE#8].contains code

/-- A request of one of the sixteen commands (R78) whose unused operand lines are idle (R76): the form `encode`
gives. -/
def Request.WellFormed (r : Request) : Bool :=
  decide (r.code.toNat ≤ 0xF)
    && (usesDst r.code || r.dst == 0)
    && (usesBytes r.code || r.bytes == [])
    && (usesValue r.code || r.value == 0)
    && (usesValues r.code || r.values == [])
    && (usesTimeout r.code || r.timeout == ⟨0⟩)

end Sys2Proof
end

