-- ==== Sys2Proof/Decode.lean ====
section
/-! DEFINITION. Reading the command port (30_encoding R75 to R78): from a request to a command or a rejection by
name, and the encoder back. The spec gives the code four bits and gives the operands no bits: they arrive with the
command as values (R77). -/

namespace Sys2Proof

/-- Why the port rejects a request (30_encoding R78). -/
inductive Reject where
  /-- A code above 0xF on the widened port. -/
  | reservedCode (code : Byte)
deriving DecidableEq, Repr

/-- The command a request stands for, by the code table of 30_encoding R76. Operand lines the command does not have
are ignored (log entry 26). -/
def decode (r : Request) : Except Reject Instr :=
  match r.code.toNat with
  | 0x0 => .ok (.buildData r.dst r.bytes)
  | 0x1 => .ok (.buildPing r.dst)
  | 0x2 => .ok (.serU32 r.bytes r.value)
  | 0x3 => .ok (.serU32s r.bytes r.values)
  | 0x4 => .ok (.serText r.bytes)
  | 0x5 => .ok (.chkAppend r.bytes)
  | 0x6 => .ok (.chkVerify r.bytes)
  | 0x7 => .ok (.sendData r.dst r.bytes)
  | 0x8 => .ok (.sendPing r.dst)
  | 0x9 => .ok (.sendU32 r.dst r.value)
  | 0xA => .ok (.sendU32s r.dst r.values)
  | 0xB => .ok (.sendText r.dst r.bytes)
  | 0xC => .ok (.readRaw r.timeout)
  | 0xD => .ok (.accumulate r.bytes r.timeout)
  | 0xE => .ok (.receive r.timeout)
  | 0xF => .ok .rdLast
  | _ => .error (.reservedCode r.code)

/-- A request with every operand line idle. -/
def idleRequest (code : Byte) : Request :=
  { code := code, dst := 0, bytes := [], value := 0, values := [], timeout := ⟨0⟩ }

/-- The request that presents a command with its operands (30_encoding R75, R76). -/
def encode : Instr → Request
  | .buildData dst payload => { idleRequest 0x0 with dst := dst, bytes := payload }
  | .buildPing dst => { idleRequest 0x1 with dst := dst }
  | .serU32 buf v => { idleRequest 0x2 with bytes := buf, value := v }
  | .serU32s buf vs => { idleRequest 0x3 with bytes := buf, values := vs }
  | .serText text => { idleRequest 0x4 with bytes := text }
  | .chkAppend buf => { idleRequest 0x5 with bytes := buf }
  | .chkVerify buf => { idleRequest 0x6 with bytes := buf }
  | .sendData dst payload => { idleRequest 0x7 with dst := dst, bytes := payload }
  | .sendPing dst => { idleRequest 0x8 with dst := dst }
  | .sendU32 dst v => { idleRequest 0x9 with dst := dst, value := v }
  | .sendU32s dst vs => { idleRequest 0xA with dst := dst, values := vs }
  | .sendText dst text => { idleRequest 0xB with dst := dst, bytes := text }
  | .readRaw t => { idleRequest 0xC with timeout := t }
  | .accumulate buf t => { idleRequest 0xD with bytes := buf, timeout := t }
  | .receive t => { idleRequest 0xE with timeout := t }
  | .rdLast => idleRequest 0xF

/-- The request of a row of spec/opcode_table.json: the row's bits are the command code, every operand is zero or
empty. A number too wide for the code line is presented as a code above 0xF, which R78 refuses. -/
def tableRequest (nbits w : Nat) : Request :=
  let v := w % 2 ^ nbits
  idleRequest (if v < 256 then BitVec.ofNat 8 v else 0xFF)

/-- The command the decoder reads from a row of spec/opcode_table.json. -/
def decodeTableWord (nbits w : Nat) : Option Instr :=
  match decode (tableRequest nbits w) with
  | .ok i => some i
  | .error _ => none

end Sys2Proof
end

