-- ==== Sys2Proof/Machine/State.lean ====
section
/-! DEFINITION. The state of one instance (10_state R20), what the two ports carry as plain data (30_encoding R75,
R77, 20_memory R54, R55), and construction, the block's reset (70_reset_and_hazards R180). -/

namespace Sys2Proof.Machine

/-- The decoded Message (10_state R22, 30_encoding R69). -/
structure Message where
  src : Byte
  dst : Byte
  /-- The count of received bytes, a natural number without wrap-around (R22, decision D12). -/
  length : Nat
  msgid : U32
  payload : Bytes
deriving DecidableEq, Repr

/-- The errors a command can answer (60_exceptions R150). -/
inductive Error where
  /-- R152. -/
  | lengthError
  /-- R153: carries the computed sum. -/
  | checksumError (s : Byte)
  /-- R154. -/
  | timeoutError
  /-- R155. -/
  | decodeError
  /-- R156: the transport's own failure. -/
  | transportFault (x : FaultCause)
deriving DecidableEq, Repr

/-- The result of a command that succeeded (30_encoding R76). -/
inductive Result where
  /-- "none": CHK_VERIFY and the SEND commands. -/
  | nothing
  | bytes (b : Bytes)
  | message (m : Message)
  /-- RD_LAST's *none*: nothing received yet (44_receive R133). -/
  | noMessage
deriving DecidableEq, Repr

/-- A response (30_encoding R77). An error delivers no result (60_exceptions R159), but ACCUMULATE's failures also
return the caller's buffer as it then stands (44_receive R131, 20_memory R57). -/
inductive Response where
  | ok (r : Result)
  | err (e : Error) (returned : Option Bytes)
  /-- `Refused(capacity)`, only with a finite `BUF_MAX` (R57). -/
  | refused (returned : Option Bytes)
deriving DecidableEq, Repr

/-- One call of the bound transport (00_scope R16) with what the transport answered. -/
inductive Call where
  | read (t : Duration) (r : Bytes)
  | write (f : Bytes) (a : WriteAnswer)
deriving DecidableEq, Repr

/-- The state. `addr`, `last` and `lastValid` are the block's, all of it (R20); `cfg` is configuration (R6, log
entry 3); the rest is the caller and the transport as plain data (log entries 1, 6, 7). -/
structure State where
  /-- `ADDR` (R21). -/
  addr : Byte
  /-- `LAST` (R22): read by no rule while `lastValid` is false (R24). -/
  last : Message
  /-- `LAST_VALID` (R24). -/
  lastValid : Bool
  /-- `START`, `START2`, `BUF_MAX` (R6): no command writes it. -/
  cfg : Config
  /-- The requests the caller issues next, in order (30_encoding R79). -/
  pending : List Request
  /-- The responses given so far, oldest first (R77, R150). -/
  responses : List Response
  /-- The answers the transport is known to give to the coming reads; after them it answers freely (R55). -/
  rxAnswers : List Bytes
  /-- The answers the transport is known to give to the coming writes; after them it answers freely (R54). -/
  txAnswers : List WriteAnswer
  /-- The transport's recorded history, oldest first (10_state R29, 20_memory R54). -/
  calls : List Call
  /-- The model's own field: which free draw comes next (log entry 25). -/
  draws : Nat
deriving DecidableEq, Repr

/-- The machine has no fault: every error of the spec is a response and the block goes on (60_exceptions R159,
R160). -/
inductive Fault where
deriving DecidableEq, Repr

/-- Where a step has no meaning. -/
inductive Refusal where
  /-- Raised by `exec` for a command that has no meaning yet; safe. -/
  | notModelled (mnemonic : String)
  /-- Raised by `step` for a command code above 0xF on the widened port (30_encoding R78); safe. -/
  | reservedCode (code : Byte)
deriving DecidableEq, Repr

/-- The fields of `LAST` after construction: the spec gives them no value and lets no rule read them (10_state R24,
R31). DESIGN CHOICE (log entry 8): zeros and the empty sequence. -/
def Message.unwritten : Message := { src := 0, dst := 0, length := 0, msgid := 0, payload := [] }

/-- Construction, the block's reset (70_reset_and_hazards R180, R182): the address and the transport supplied,
`LAST_VALID` 0, idle, no transport access yet. -/
def State.construct (cfg : Config) (addr : Byte) (rx : List Bytes) (tx : List WriteAnswer) : State where
  addr := addr
  last := Message.unwritten
  lastValid := false
  cfg := cfg
  pending := []
  responses := []
  rxAnswers := rx
  txAnswers := tx
  calls := []
  draws := 0

/-- The machine right after reset (10_state R31): constructed with the configuration constants and a transport of
which nothing is known. -/
def State.reset : State := State.construct Config.default Config.address [] []

end Sys2Proof.Machine
end

