-- ==== Sys2Proof/Machine/Operands.lean ====
section
/-! DEFINITION. The operand forms and byte-sequence primitives (00_scope R12 to R14, 41_serialize R100 to R103), the
constants of the frame (R6), and the decoding of a received buffer by position (30_encoding R69, 44_receive R132). -/

namespace Sys2Proof.Machine

/-- `OVERHEAD` (00_scope R6): five header bytes and the checksum. -/
def overhead : Nat := 6

/-- `MIN_FRAME` (R6). -/
def minFrame : Nat := 6

/-- `BE32(v)`, most significant byte first (R12). -/
def be32 (v : U32) : Bytes :=
  [v.extractLsb' 24 8, v.extractLsb' 16 8, v.extractLsb' 8 8, v.extractLsb' 0 8]

/-- `UnBE32(b0, b1, b2, b3)` (R12). -/
def unBe32 (b0 b1 b2 b3 : Byte) : U32 :=
  BitVec.ofNat 32 (b0.toNat * 2 ^ 24 + b1.toNat * 2 ^ 16 + b2.toNat * 2 ^ 8 + b3.toNat)

/-- `MemRead(b, off, 1)` (R13): never a value for a byte that is not there (20_memory R45). -/
def memRead1 (b : Bytes) (off : Nat) : Except Error Byte :=
  match b.drop off with
  | x :: _ => .ok x
  | [] => .error .decodeError

/-- `MemRead(b, off, 4)` (R13), big-endian (20_memory R43), at any offset (R44). -/
def memRead4 (b : Bytes) (off : Nat) : Except Error U32 :=
  match b.drop off with
  | b0 :: b1 :: b2 :: b3 :: _ => .ok (unBe32 b0 b1 b2 b3)
  | _ => .error .decodeError

/-- The append, the only write to a byte sequence (R14); also the pseudo-command SER_BYTES (41_serialize R103). -/
def append (b bytes : Bytes) : Bytes := b ++ bytes

/-- A 32-bit integer appended to a buffer (R100). -/
def appendU32 (buf : Bytes) (v : U32) : Bytes := append buf (be32 v)

/-- The integers of a sequence appended one after another, in order (R101). -/
def appendU32s (buf : Bytes) (vs : List U32) : Bytes := vs.foldl appendU32 buf

/-- A text as a payload: its character codes and one terminating zero byte (R102). -/
def textPayload (text : Bytes) : Bytes := append text [0x00]

/-- The Message of a buffer, by position (R132): byte 2, byte 3, bytes 5 to 8, and offset 9 to the end with the
checksum trailer; bytes 0, 1 and 4 are not read (30_encoding R72). A buffer of fewer than nine bytes has no such
fields and raises DecodeError (60_exceptions R155). -/
def decodeMessage (buf : Bytes) : Except Error Message :=
  match buf with
  | _ :: _ :: b2 :: b3 :: _ :: b5 :: b6 :: b7 :: b8 :: rest =>
    .ok { src := b2, dst := b3, length := buf.length, msgid := unBe32 b5 b6 b7 b8, payload := rest }
  | _ => .error .decodeError

end Sys2Proof.Machine
end

