-- ==== Sys2Proof/Machine/Flags.lean ====
section
/-! DEFINITION. The block has no flags (10_state R27): what a command finds out about its bytes is the outcome in its
response. This file holds what decides the outcome: the modulo-256 sum and its complement (00_scope R9 to R11), the
tests of the commands in their fixed order (60_exceptions R158), and the numeric status of a response (R150). -/

namespace Sys2Proof.Machine

/-- `Sum8(b)`: the sum of all bytes modulo 256 (R9). -/
def sum8 (b : Bytes) : Byte := BitVec.ofNat 8 (b.map BitVec.toNat).sum

/-- `Neg8(s)`: complement and increment, modulo 256 (R10). -/
def neg8 (s : Byte) : Byte := (s ^^^ 0xFF#8) + 1

/-- `Chk(b)`: the checksum trailer of a buffer (R11). -/
def chk (b : Bytes) : Byte := neg8 (sum8 b)

/-- The trailer appended: the checksum generator (42_checksum R110). -/
def appendTrailer (b : Bytes) : Bytes := append b [chk b]

/-- The validator's test (42_checksum R111). -/
def checksumTest (b : Bytes) : Except Error Unit :=
  if sum8 b = 0 then .ok () else .error (.checksumError (sum8 b))

/-- READ_RAW's tests in order: length, then checksum (44_receive R130, R158). -/
def rawTest (r : Bytes) : Except Error Unit :=
  if r.length < minFrame then .error .lengthError else checksumTest r

/-- RECEIVE's tests in order, then the decode: checksum, emptiness, minimum length, decode bound (44_receive R132,
R158). -/
def receiveTest (r : Bytes) : Except Error Message :=
  match checksumTest r with
  | .error e => .error e
  | .ok () =>
    if r.length = 0 then .error .timeoutError
    else if r.length < minFrame then .error .lengthError
    else decodeMessage r

/-- The status code of an error (R150, decision D11). -/
def errorCode : Error → Nat
  | .lengthError => 1
  | .checksumError _ => 2
  | .timeoutError => 3
  | .decodeError => 4
  | .transportFault _ => 5

/-- The status code a response carries (R150). -/
def statusCode : Response → Nat
  | .ok _ => 0
  | .err e _ => errorCode e
  | .refused _ => 6

end Sys2Proof.Machine
end

