-- ==== Sys2Proof/Machine/Ops.lean ====
section
/-! DEFINITION. The named operations over the state: giving a response, raising an error (60_exceptions R159), the
capacity test (20_memory R57), the two transport calls (R54, R55), frame assembly (30_encoding R60 to R67) and the
write of the last-message cache (10_state R23). -/

namespace Sys2Proof.Machine

/-- The caller presents one request, to be performed next (30_encoding R75). -/
def State.present (s : State) (r : Request) : State := { s with pending := r :: s.pending }

/-- The block takes the next request from the command port, if one is presented (10_state R26, 20_memory R49). -/
def State.fetch (s : State) : Option (Request × State) :=
  match s.pending with
  | [] => none
  | r :: rest => some (r, { s with pending := rest })

/-- The response port delivers one response (30_encoding R75). -/
def State.respond (s : State) (r : Response) : State := { s with responses := s.responses ++ [r] }

/-- Taking an error (60_exceptions R159): it is returned to the caller and nothing else happens. No state is saved
and none is restored afterwards: the block is idle and accepts the next command (R160). -/
def State.raise (s : State) (e : Error) : State := s.respond (.err e none)

/-- The end of a command that tested something: its result, or the error raised (R150, R159). -/
def State.deliver (s : State) (x : Except Error Result) : State :=
  match x with
  | .ok r => s.respond (.ok r)
  | .error e => s.raise e

/-- Whether a byte sequence of `n` bytes can be held (20_memory R57). -/
def fits (c : Config) (n : Nat) : Bool :=
  match c.bufMax with
  | none => true
  | some m => decide (n ≤ m)

/-- The answer of a command whose result is a byte sequence and which touches nothing else: the sequence, or
`Refused(capacity)` when it cannot be held (20_memory R57). Operands and intermediate buffers are no longer than the
result (log entry 27). -/
def State.answerBytes (s : State) (b : Bytes) : State :=
  if fits s.cfg b.length then s.respond (.ok (.bytes b)) else s.respond (.refused none)

/-- The header of a frame: START, LENGTH, SRC, DST, START2 (30_encoding R60), with the LENGTH byte given. -/
def header (s : State) (len dst : Byte) : Bytes := [s.cfg.start, len, s.addr, dst, s.cfg.start2]

/-- The frame of BUILD_DATA (40_frame_build R90): LENGTH is `(n + 6) mod 256` (30_encoding R62). -/
def dataFrame (s : State) (dst : Byte) (payload : Bytes) : Bytes :=
  appendTrailer (append (header s (BitVec.ofNat 8 (payload.length + overhead)) dst) payload)

/-- The frame of BUILD_PING (40_frame_build R91). -/
def pingFrame (s : State) (dst : Byte) : Bytes := appendTrailer (header s 0x06 dst)

/-- What the transport answers to the next `TWrite`: the known answer, else a free draw (20_memory R54). -/
def State.writeAnswer (s : State) : WriteAnswer := s.txAnswers.headD (Config.freeWrite s.draws)

/-- The transport after `TWrite(f)`: the call recorded with its answer (20_memory R54). -/
def State.afterWrite (s : State) (f : Bytes) : State :=
  { s with txAnswers := s.txAnswers.tail, draws := s.draws + 1, calls := s.calls ++ [.write f s.writeAnswer] }

/-- A send (43_send R120, R125): refused before any transport access, or one `TWrite` of the whole frame and then Ok
or the transport's own failure. -/
def State.send (s : State) (f : Bytes) : State :=
  if fits s.cfg f.length then
    match s.writeAnswer with
    | .done => (s.afterWrite f).respond (.ok .nothing)
    | .failed x _ => (s.afterWrite f).raise (.transportFault x)
  else s.respond (.refused none)

/-- The transport honours a finite `BUF_MAX` (20_memory R57): its answer has at most that many bytes. -/
def limit (c : Config) (r : Bytes) : Bytes :=
  match c.bufMax with
  | none => r
  | some m => r.take m

/-- What the transport answers to the next `TRead`: the known answer, else a free draw, within `BUF_MAX` (20_memory
R55, R57). -/
def State.readAnswer (s : State) : Bytes := limit s.cfg (s.rxAnswers.headD (Config.freeRead s.draws))

/-- The transport after `TRead(t)`: the bytes are consumed, the call recorded with the timeout as it was given
(20_memory R48, R55). -/
def State.afterRead (s : State) (t : Duration) : State :=
  { s with rxAnswers := s.rxAnswers.tail, draws := s.draws + 1, calls := s.calls ++ [.read t s.readAnswer] }

/-- The write of `LAST` and `LAST_VALID`, all fields at once (10_state R23, R24). -/
def State.cache (s : State) (m : Message) : State := { s with last := m, lastValid := true }

end Sys2Proof.Machine
end

