-- ==== Sys2Proof/Machine/Build.lean ====
section
/-! DEFINITION. The frame-building commands (40_frame_build). -/

namespace Sys2Proof.Machine

/-- BUILD_DATA (R90). -/
def execBuildData (dst : Byte) (payload : Bytes) (s : State) : Host.Outcome State Fault Refusal :=
  .next (s.answerBytes (dataFrame s dst payload))

/-- BUILD_PING (R91). -/
def execBuildPing (dst : Byte) (s : State) : Host.Outcome State Fault Refusal :=
  .next (s.answerBytes (pingFrame s dst))

end Sys2Proof.Machine
end

