-- ==== Sys2Proof/Machine/Checksum.lean ====
section
/-! DEFINITION. The checksum generator and validator (42_checksum). -/

namespace Sys2Proof.Machine

/-- CHK_APPEND (R110). -/
def execChkAppend (buf : Bytes) (s : State) : Host.Outcome State Fault Refusal :=
  .next (s.answerBytes (appendTrailer buf))

/-- CHK_VERIFY (R111). An operand that cannot be held is refused (20_memory R57, log entry 16). -/
def execChkVerify (buf : Bytes) (s : State) : Host.Outcome State Fault Refusal :=
  .next (if fits s.cfg buf.length then s.deliver ((checksumTest buf).map fun _ => .nothing)
    else s.respond (.refused none))

end Sys2Proof.Machine
end

