-- ==== Sys2Proof/Machine/Receive.lean ====
section
/-! DEFINITION. The receive commands and the reading of the cache (44_receive). -/

namespace Sys2Proof.Machine

/-- READ_RAW (R130). -/
def execReadRaw (t : Duration) (s : State) : Host.Outcome State Fault Refusal :=
  .next ((s.afterRead t).deliver ((rawTest s.readAnswer).map fun _ => .bytes s.readAnswer))

/-- ACCUMULATE (R131): append first, then validate the new bytes only. The capacity is tested after the read (20_memory
R57), and both failures return a buffer. -/
def execAccumulate (buf : Bytes) (t : Duration) (s : State) : Host.Outcome State Fault Refusal :=
  .next (if fits s.cfg (buf.length + s.readAnswer.length) then
      match checksumTest s.readAnswer with
      | .ok () => (s.afterRead t).respond (.ok (.bytes (append buf s.readAnswer)))
      | .error e => (s.afterRead t).respond (.err e (some (append buf s.readAnswer)))
    else (s.afterRead t).respond (.refused (some buf)))

/-- RECEIVE (R132): the cache is written in the success case only, as the last step. -/
def execReceive (t : Duration) (s : State) : Host.Outcome State Fault Refusal :=
  .next (match receiveTest s.readAnswer with
    | .ok m => ((s.afterRead t).cache m).respond (.ok (.message m))
    | .error e => (s.afterRead t).raise e)

/-- RD_LAST (R133). -/
def execRdLast (s : State) : Host.Outcome State Fault Refusal :=
  .next (match s.lastValid with
    | false => s.respond (.ok .noMessage)
    | true => s.respond (.ok (.message s.last)))

end Sys2Proof.Machine
end

