-- ==== Sys2Proof/Machine/Send.lean ====
section
/-! DEFINITION. The send commands (43_send): a frame built from a payload, then one write of it. -/

namespace Sys2Proof.Machine

/-- SEND_DATA (R120). -/
def execSendData (dst : Byte) (payload : Bytes) (s : State) : Host.Outcome State Fault Refusal :=
  .next (s.send (dataFrame s dst payload))

/-- SEND_PING (R121). -/
def execSendPing (dst : Byte) (s : State) : Host.Outcome State Fault Refusal :=
  .next (s.send (pingFrame s dst))

/-- SEND_U32 (R122). -/
def execSendU32 (dst : Byte) (v : U32) (s : State) : Host.Outcome State Fault Refusal :=
  .next (s.send (dataFrame s dst (be32 v)))

/-- SEND_U32S (R123). -/
def execSendU32s (dst : Byte) (vs : List U32) (s : State) : Host.Outcome State Fault Refusal :=
  .next (s.send (dataFrame s dst (appendU32s [] vs)))

/-- SEND_TEXT (R124). -/
def execSendText (dst : Byte) (text : Bytes) (s : State) : Host.Outcome State Fault Refusal :=
  .next (s.send (dataFrame s dst (textPayload text)))

end Sys2Proof.Machine
end

