-- ==== Sys2Proof/Machine/Serialize.lean ====
section
/-! DEFINITION. The payload serialization commands (41_serialize). -/

namespace Sys2Proof.Machine

/-- SER_U32 (R100). -/
def execSerU32 (buf : Bytes) (v : U32) (s : State) : Host.Outcome State Fault Refusal :=
  .next (s.answerBytes (appendU32 buf v))

/-- SER_U32S (R101). -/
def execSerU32s (buf : Bytes) (vs : List U32) (s : State) : Host.Outcome State Fault Refusal :=
  .next (s.answerBytes (appendU32s buf vs))

/-- SER_TEXT (R102). -/
def execSerText (text : Bytes) (s : State) : Host.Outcome State Fault Refusal :=
  .next (s.answerBytes (textPayload text))

end Sys2Proof.Machine
end

