-- ==== Sys2Proof/Machine/Dispatch.lean ====
section
/-! DEFINITION. One arm per command (30_encoding R76). -/

namespace Sys2Proof.Machine

def exec (i : Instr) (s : State) : Host.Outcome State Fault Refusal :=
  match i with
  | .buildData dst payload => Sys2Proof.Machine.execBuildData dst payload s
  | .buildPing dst => Sys2Proof.Machine.execBuildPing dst s
  | .serU32 buf v => Sys2Proof.Machine.execSerU32 buf v s
  | .serU32s buf vs => Sys2Proof.Machine.execSerU32s buf vs s
  | .serText text => Sys2Proof.Machine.execSerText text s
  | .chkAppend buf => Sys2Proof.Machine.execChkAppend buf s
  | .chkVerify buf => Sys2Proof.Machine.execChkVerify buf s
  | .sendData dst payload => Sys2Proof.Machine.execSendData dst payload s
  | .sendPing dst => Sys2Proof.Machine.execSendPing dst s
  | .sendU32 dst v => Sys2Proof.Machine.execSendU32 dst v s
  | .sendU32s dst vs => Sys2Proof.Machine.execSendU32s dst vs s
  | .sendText dst text => Sys2Proof.Machine.execSendText dst text s
  | .readRaw t => Sys2Proof.Machine.execReadRaw t s
  | .accumulate buf t => Sys2Proof.Machine.execAccumulate buf t s
  | .receive t => Sys2Proof.Machine.execReceive t s
  | .rdLast => Sys2Proof.Machine.execRdLast s

end Sys2Proof.Machine
end

