-- ==== Sys2Proof/Machine/Step.lean ====
section
/-! DEFINITION. One step: the block takes the next request from the command port and performs it from start to finish
(10_state R26, 20_memory R49). -/

namespace Sys2Proof.Machine

/-- One step. With nothing pending the block stays idle (10_state R26, log entry 2); a code above 0xF is refused
(30_encoding R78). -/
def step (s : State) : Host.Outcome State Fault Refusal :=
  match s.fetch with
  | none => .next s
  | some (r, s') =>
    match decode r with
    | .ok i => exec i s'
    | .error (.reservedCode c) => .refused (.reservedCode c)

/-- The caller presents a row of spec/opcode_table.json as its next command, with operands of zeros (log entry 2). -/
def State.withFetchWord (s : State) (nbits w : Nat) : State :=
  s.present (tableRequest nbits w)

end Sys2Proof.Machine
end

