-- ==== Sys2Proof/Safety.lean ====
section
/-! DEFINITION. The terms claims are stated in: capacity, the well-formed frame (30_encoding R73), the decode of a
received buffer by offset (R69), what each command may answer (60_exceptions R150) and do to the transport (10_state
R32), and the invariants of the machine. -/

namespace Sys2Proof.Safety

open Sys2Proof.Machine

/-- `n` bytes can be held (20_memory R57). -/
def Within (c : Config) (n : Nat) : Prop := ∀ m, c.bufMax = some m → n ≤ m

/-- `f` is a well-formed frame from address `a` to address `d` (30_encoding R73). -/
def WellFormedFrame (c : Config) (a d : Byte) (f : Bytes) : Prop :=
  6 ≤ f.length ∧ f[0]? = some c.start ∧ f[1]? = some (BitVec.ofNat 8 f.length) ∧ f[2]? = some a ∧ f[3]? = some d ∧
    f[4]? = some c.start2 ∧ sum8 f = 0

/-- `m` is the Message of the buffer `r`, field by field (30_encoding R69). -/
def IsMessageOf (r : Bytes) (m : Message) : Prop :=
  9 ≤ r.length ∧ r[2]? = some m.src ∧ r[3]? = some m.dst ∧ m.length = r.length ∧
    memRead4 r 5 = .ok m.msgid ∧ m.payload = r.drop 9

/-- The closed form of a built frame (40_frame_build R90), in natural numbers: header, payload, and the complement of
the sum of all of it. -/
def closedFrame (c : Config) (a d : Byte) (p : Bytes) : Bytes :=
  [c.start, BitVec.ofNat 8 (p.length + 6), a, d, c.start2] ++ p ++
    [neg8 (BitVec.ofNat 8
      (c.start.toNat + (p.length + 6) % 256 + a.toNat + d.toNat + c.start2.toNat + (sum8 p).toNat))]

/-- `s` after one `TWrite(f)` answered by `a` and the response `r`, nothing else (43_send R120). -/
def afterSend (s : State) (f : Bytes) (a : WriteAnswer) (r : Response) : State :=
  { s with
    txAnswers := s.txAnswers.tail
    draws := s.draws + 1
    calls := s.calls ++ [.write f a]
    responses := s.responses ++ [r] }

/-- `s` after one `TRead(t)` and the response `r`, nothing else (44_receive R130). -/
def afterReceive (s : State) (t : Duration) (r : Response) : State :=
  { s with
    rxAnswers := s.rxAnswers.tail
    draws := s.draws + 1
    calls := s.calls ++ [.read t s.readAnswer]
    responses := s.responses ++ [r] }

/-- The response a command gives in a state. -/
def answer (i : Instr) (s : State) : Option Response :=
  match exec i s with
  | .next t => t.responses.getLast?
  | .fault _ => none
  | .refused _ => none

/-- The commands, performed one after another from `s`, each from the state the one before left, end in `t`; to each
belongs the one response it gives and the one transport call, if any, it makes (20_memory R48, R49). -/
def PerformedInOrder : List Instr → State → List Response → List (Option Call) → State → Prop
  | [], s, rs, cs, t => rs = [] ∧ cs = [] ∧ t = s
  | i :: is, s, rs, cs, t => ∃ u r rs' c cs', exec i s = .next u ∧ u.responses = s.responses ++ [r] ∧
      u.calls = s.calls ++ c.toList ∧ rs = r :: rs' ∧ cs = c :: cs' ∧ PerformedInOrder is u rs' cs' t

/-- The frames handed to the transport by the recorded calls, those of failed writes included. -/
def writtenFrames (cs : List Call) : List Bytes :=
  cs.filterMap fun c => match c with
    | .write f _ => some f
    | .read _ _ => none

/-- The bytes that reached the bus: the whole frame of a write that returned, a part of one that failed
(93_implementation_defined U7). -/
def busBytes (cs : List Call) : Bytes :=
  cs.flatMap fun c => match c with
    | .write f .done => f
    | .write f (.failed _ n) => f.take n
    | .read _ _ => []

/-- The answers the recorded reads gave. -/
def readAnswers (cs : List Call) : List Bytes :=
  cs.filterMap fun c => match c with
    | .read _ r => some r
    | .write _ _ => none

/-- The status codes a command can answer (60_exceptions R150, the column "produced by"). -/
def mayAnswer : Instr → List Nat
  | .buildData _ _ | .buildPing _ | .serU32 _ _ | .serU32s _ _ | .serText _ | .chkAppend _ => [0, 6]
  | .chkVerify _ => [0, 2, 6]
  | .sendData _ _ | .sendPing _ | .sendU32 _ _ | .sendU32s _ _ | .sendText _ _ => [0, 5, 6]
  | .readRaw _ => [0, 1, 2]
  | .accumulate _ _ => [0, 2, 6]
  | .receive _ => [0, 1, 2, 3, 4]
  | .rdLast => [0]

/-- The commands that read the transport (10_state R32) and the timeout they read with. -/
def readTimeout : Instr → Option Duration
  | .readRaw t | .accumulate _ t | .receive t => some t
  | .buildData _ _ | .buildPing _ | .serU32 _ _ | .serU32s _ _ | .serText _ | .chkAppend _ | .chkVerify _
  | .sendData _ _ | .sendPing _ | .sendU32 _ _ | .sendU32s _ _ | .sendText _ _ | .rdLast => none

/-- The commands that write the transport (10_state R32). -/
def isSend : Instr → Bool
  | .sendData _ _ | .sendPing _ | .sendU32 _ _ | .sendU32s _ _ | .sendText _ _ => true
  | .buildData _ _ | .buildPing _ | .serU32 _ _ | .serU32s _ _ | .serText _ | .chkAppend _ | .chkVerify _
  | .readRaw _ | .accumulate _ _ | .receive _ | .rdLast => false

/-- Every frame the block has handed to the transport is a well-formed frame from its own address (30_encoding R66,
R73). -/
def WritesAreFrames (s : State) : Prop :=
  ∀ f ∈ writtenFrames s.calls, ∃ d, WellFormedFrame s.cfg s.addr d f

/-- A valid cache holds the Message of a zero-sum buffer that a read really returned (10_state R22, R23). -/
def CacheIsAReadMessage (s : State) : Prop :=
  s.lastValid = true → ∃ r ∈ readAnswers s.calls, sum8 r = 0 ∧ IsMessageOf r s.last

/-- The sum a ChecksumError carries is never 0 (60_exceptions R153). -/
def ChecksumErrorsCarryNonzero (s : State) : Prop :=
  ∀ e b, Response.err (.checksumError e) b ∈ s.responses → e ≠ 0

/-- No read returned more than `BUF_MAX` bytes, and the cached payload can be held (20_memory R57). -/
def ReadsWithinCapacity (s : State) : Prop :=
  (∀ r ∈ readAnswers s.calls, Within s.cfg r.length) ∧ (s.lastValid = true → Within s.cfg s.last.payload.length)

/-- Two states that differ at most in the fields of a `LAST` that nothing has written yet (10_state R24). -/
def SameButUnwrittenCache (s u : State) : Prop :=
  u = s ∨ (s.lastValid = false ∧ ∃ m, u = { s with last := m })

end Sys2Proof.Safety
end

