-- ==== Sys2Proof/Certificates/Slice0/Obligations.lean ====
section
/-! DEFINITION. The statements for the provers, from the numbered rules of spec/. -/

open Sys2Proof Sys2Proof.Machine Sys2Proof.Safety

/-! ### Construction, the step, the command port -/

/-- 70_reset_and_hazards R180. -/
def Obligations.ConstructionSetsTheState : Prop :=
  ∀ (cfg : Config) (addr : Byte) (rx : List Bytes) (tx : List WriteAnswer),
    let s := State.construct cfg addr rx tx
    s.addr = addr ∧ s.cfg = cfg ∧ s.lastValid = false ∧ s.rxAnswers = rx ∧ s.txAnswers = tx ∧
      s.calls = [] ∧ s.pending = [] ∧ s.responses = [] ∧
      ∀ i, ∃ t, step { s with pending := [encode i] } = .next t

/-- 10_state R31 for the machine `State.reset`: it is the constructed instance with the configuration constants
(log entries 3, 4 and 5 name them), its markers differ (00_scope R6), and RD_LAST answers *none* (10_state R24). -/
def Obligations.ResetIsConstruction : Prop :=
  State.reset = State.construct Config.default Config.address [] [] ∧
    State.reset.cfg.start ≠ State.reset.cfg.start2 ∧ State.reset.cfg.bufMax = none ∧
    answer .rdLast State.reset = some (.ok .noMessage)

/-- 10_state R26 and 20_memory R49: one command at a time, each performed by `exec` from start to finish. That a step
with nothing pending leaves the idle block as it is, is the model's choice (log entry 2). -/
def Obligations.StepRunsTheDecodedCommand : Prop :=
  (∀ (s : State) r rest i, s.pending = r :: rest → decode r = .ok i → step s = exec i { s with pending := rest }) ∧
    ∀ s : State, s.pending = [] → step s = .next s

/-- 30_encoding R78. -/
def Obligations.OnlyCodesAboveFifteenAreRefused : Prop :=
  (∀ r : Request, r.code.toNat ≤ 0xF → ∃ i, decode r = .ok i) ∧
    ∀ (s : State) r rest, s.pending = r :: rest → 0xF < r.code.toNat → step s = .refused (.reservedCode r.code)

/-- The sixteen rows of the code table (30_encoding R76), operands zero or empty. -/
def Obligations.CodeTableRowsDecode : Prop :=
  decodeTableWord 8 0x0 = some (.buildData 0 []) ∧ decodeTableWord 8 0x1 = some (.buildPing 0) ∧
    decodeTableWord 8 0x2 = some (.serU32 [] 0) ∧ decodeTableWord 8 0x3 = some (.serU32s [] []) ∧
    decodeTableWord 8 0x4 = some (.serText []) ∧ decodeTableWord 8 0x5 = some (.chkAppend []) ∧
    decodeTableWord 8 0x6 = some (.chkVerify []) ∧ decodeTableWord 8 0x7 = some (.sendData 0 []) ∧
    decodeTableWord 8 0x8 = some (.sendPing 0) ∧ decodeTableWord 8 0x9 = some (.sendU32 0 0) ∧
    decodeTableWord 8 0xA = some (.sendU32s 0 []) ∧ decodeTableWord 8 0xB = some (.sendText 0 []) ∧
    decodeTableWord 8 0xC = some (.readRaw ⟨0⟩) ∧ decodeTableWord 8 0xD = some (.accumulate [] ⟨0⟩) ∧
    decodeTableWord 8 0xE = some (.receive ⟨0⟩) ∧ decodeTableWord 8 0xF = some .rdLast

/-- 30_encoding R75 to R77: a command presented with its operands is read back as it was, with every operand at every
value, and every well-formed request is the presentation of the command it decodes to. -/
def Obligations.DecodeAndEncodeAgree : Prop :=
  (∀ i : Instr, decode (encode i) = .ok i) ∧
    ∀ (r : Request) (i : Instr), r.WellFormed = true → decode r = .ok i → encode i = r

/-! ### Arithmetic and byte sequences -/

/-- 00_scope R9. -/
def Obligations.ByteSumIsModulo256 : Prop :=
  (∀ b : Bytes, (sum8 b).toNat = (b.map BitVec.toNat).sum % 256) ∧ sum8 [] = 0 ∧
    (∀ a b : Bytes, (sum8 (a ++ b)).toNat = ((sum8 a).toNat + (sum8 b).toNat) % 256) ∧
    ∀ a b : Bytes, a.Perm b → a.foldl (fun acc x => acc + x) 0 = sum8 b

/-- 00_scope R10 and R11. -/
def Obligations.ComplementIsTheNegative : Prop :=
  (∀ s : Byte, (neg8 s).toNat = (256 - s.toNat) % 256 ∧ (neg8 s).toNat = ((s ^^^ 0xFF#8).toNat + 1) % 256 ∧
      (s.toNat + (neg8 s).toNat) % 256 = 0) ∧
    neg8 0 = 0 ∧ ∀ b : Bytes, chk b = neg8 (sum8 b)

/-- 00_scope R12. -/
def Obligations.BigEndianFormIsABijection : Prop :=
  (∀ v : U32, be32 v = [BitVec.ofNat 8 (v.toNat / 2 ^ 24), BitVec.ofNat 8 (v.toNat / 2 ^ 16),
      BitVec.ofNat 8 (v.toNat / 2 ^ 8), BitVec.ofNat 8 v.toNat]) ∧
    (∀ b0 b1 b2 b3 : Byte, (unBe32 b0 b1 b2 b3).toNat =
      b0.toNat * 2 ^ 24 + b1.toNat * 2 ^ 16 + b2.toNat * 2 ^ 8 + b3.toNat) ∧
    (∀ v : U32, ∃ b0 b1 b2 b3, be32 v = [b0, b1, b2, b3] ∧ unBe32 b0 b1 b2 b3 = v) ∧
    ∀ b0 b1 b2 b3 : Byte, be32 (unBe32 b0 b1 b2 b3) = [b0, b1, b2, b3]

/-- 00_scope R13. -/
def Obligations.MemReadNeverLeavesTheSequence : Prop :=
  ∀ (b : Bytes) (off : Nat),
    (b.length < off + 1 → memRead1 b off = .error .decodeError) ∧
    (b.length < off + 4 → memRead4 b off = .error .decodeError) ∧
    (∀ x, b[off]? = some x → memRead1 b off = .ok x) ∧
    ∀ x0 x1 x2 x3, b[off]? = some x0 → b[off + 1]? = some x1 → b[off + 2]? = some x2 → b[off + 3]? = some x3 →
      memRead4 b off = .ok (unBe32 x0 x1 x2 x3)

/-- 41_serialize R104. -/
def Obligations.BigEndianRoundTrip : Prop :=
  (∀ v : U32, ∃ b0 b1 b2 b3, be32 v = [b0, b1, b2, b3] ∧ unBe32 b0 b1 b2 b3 = v) ∧
    (∀ (buf : Bytes) (v : U32) (s : State) (b : Bytes), answer (.serU32 buf v) s = some (.ok (.bytes b)) →
      memRead4 b buf.length = .ok v) ∧
    ∀ (s peer : State) (d : Byte) (v : U32) (rest : Bytes) (t : Duration),
      s.readAnswer = closedFrame peer.cfg peer.addr d (be32 v ++ rest) →
      ∃ m, answer (.receive t) s = some (.ok (.message m)) ∧ m.msgid = v

/-- 42_checksum R112: the law, and that CHK_VERIFY accepts every result of CHK_APPEND. -/
def Obligations.TrailerMakesTheSumZero : Prop :=
  ∀ b : Bytes, sum8 (b ++ [chk b]) = 0 ∧
    ∀ (s : State) (c : Bytes), answer (.chkAppend b) s = some (.ok (.bytes c)) →
      answer (.chkVerify c) s = some (.ok .nothing)

/-- 42_checksum R113. -/
def Obligations.TrailerIsTheOneZeroSumByte : Prop :=
  ∀ (b : Bytes) (c : Byte), sum8 (b ++ [c]) = 0 ↔ c = chk b

/-- 42_checksum R115: the 8-bit accumulator gives the trailer of CHK_APPEND and the verdict of CHK_VERIFY. -/
def Obligations.StreamingAccumulatorAgrees : Prop :=
  ∀ (b : Bytes) (s : State), s.cfg.bufMax = none →
    answer (.chkAppend b) s = some (.ok (.bytes (b ++ [neg8 (b.foldl (fun acc x => acc + x) 0)]))) ∧
    (b.foldl (fun acc x => acc + x) (0 : Byte) = 0 ↔ answer (.chkVerify b) s = some (.ok .nothing))

/-- 40_frame_build R92: the header of a built frame does not depend on the payload's content, every single changed byte
is detected by the validator, any two changes that cancel modulo 256 are not, and in general exactly the corruptions
that change the sum are detected. -/
def Obligations.SingleByteCorruptionIsDetected : Prop :=
  ∀ (c : Config) (a d : Byte) (p : Bytes),
    (∀ q : Bytes, q.length = p.length → (closedFrame c a d q).take 5 = (closedFrame c a d p).take 5) ∧
    (∀ (k : Nat) (x y : Byte), (closedFrame c a d p)[k]? = some y → x ≠ y →
      ∃ e, e ≠ 0 ∧ checksumTest ((closedFrame c a d p).set k x) = .error (.checksumError e)) ∧
    (∀ (j k : Nat) (x y x' y' : Byte), j ≠ k → (closedFrame c a d p)[j]? = some x →
      (closedFrame c a d p)[k]? = some y → (x'.toNat + y'.toNat) % 256 = (x.toNat + y.toNat) % 256 →
      checksumTest (((closedFrame c a d p).set j x').set k y') = .ok ()) ∧
    ∀ g : Bytes, g.length = (closedFrame c a d p).length →
      (checksumTest g = .ok () ↔
        (g.map BitVec.toNat).sum % 256 = ((closedFrame c a d p).map BitVec.toNat).sum % 256)

/-! ### The building, serializing and checksum commands -/

/-- 40_frame_build R90. -/
def Obligations.BuildDataAnswersItsFrame : Prop :=
  ∀ (d : Byte) (p : Bytes) (s : State),
    let f := closedFrame s.cfg s.addr d p
    (encode (.buildData d p)).code = 0x0 ∧
    (Within s.cfg (p.length + 6) →
      exec (.buildData d p) s = .next { s with responses := s.responses ++ [.ok (.bytes f)] }) ∧
    (¬ Within s.cfg (p.length + 6) →
      exec (.buildData d p) s = .next { s with responses := s.responses ++ [.refused none] }) ∧
    f.length = p.length + 6 ∧ (f.drop 5).take p.length = p ∧ WellFormedFrame s.cfg s.addr d f

/-- 40_frame_build R91. -/
def Obligations.BuildPingAnswersTheSixByteFrame : Prop :=
  ∀ (d : Byte) (s : State),
    let f := [s.cfg.start, 0x06, s.addr, d, s.cfg.start2,
      neg8 (BitVec.ofNat 8 (s.cfg.start.toNat + 6 + s.addr.toNat + d.toNat + s.cfg.start2.toNat))]
    (encode (.buildPing d)).code = 0x1 ∧
    (Within s.cfg 6 → exec (.buildPing d) s = .next { s with responses := s.responses ++ [.ok (.bytes f)] }) ∧
    (¬ Within s.cfg 6 → exec (.buildPing d) s = .next { s with responses := s.responses ++ [.refused none] }) ∧
    f.length = 6 ∧ sum8 f = 0 ∧ exec (.buildPing d) s = exec (.buildData d []) s

/-- 41_serialize R100. -/
def Obligations.SerU32AppendsBigEndian : Prop :=
  ∀ (buf : Bytes) (v : U32) (s : State),
    let b := buf ++ [BitVec.ofNat 8 (v.toNat / 2 ^ 24), BitVec.ofNat 8 (v.toNat / 2 ^ 16),
      BitVec.ofNat 8 (v.toNat / 2 ^ 8), BitVec.ofNat 8 v.toNat]
    (encode (.serU32 buf v)).code = 0x2 ∧
    (Within s.cfg (buf.length + 4) →
      exec (.serU32 buf v) s = .next { s with responses := s.responses ++ [.ok (.bytes b)] }) ∧
    (¬ Within s.cfg (buf.length + 4) →
      exec (.serU32 buf v) s = .next { s with responses := s.responses ++ [.refused none] }) ∧
    b.length = buf.length + 4 ∧ b.take buf.length = buf ∧ memRead4 b buf.length = .ok v

/-- 41_serialize R101. -/
def Obligations.SerU32sAppendsEachInOrder : Prop :=
  ∀ (buf : Bytes) (vs : List U32) (s : State),
    let b := buf ++ vs.flatMap be32
    (encode (.serU32s buf vs)).code = 0x3 ∧
    (Within s.cfg (buf.length + 4 * vs.length) →
      exec (.serU32s buf vs) s = .next { s with responses := s.responses ++ [.ok (.bytes b)] }) ∧
    (¬ Within s.cfg (buf.length + 4 * vs.length) →
      exec (.serU32s buf vs) s = .next { s with responses := s.responses ++ [.refused none] }) ∧
    b.length = buf.length + 4 * vs.length ∧
    (∀ (k : Nat) (v : U32), vs[k]? = some v → memRead4 b (buf.length + 4 * k) = .ok v) ∧
    ∀ v : U32, exec (.serU32s buf [v]) s = exec (.serU32 buf v) s

/-- 41_serialize R102. -/
def Obligations.SerTextAppendsOneTerminator : Prop :=
  ∀ (text : Bytes) (s : State),
    (encode (.serText text)).code = 0x4 ∧
    (Within s.cfg (text.length + 1) →
      exec (.serText text) s = .next { s with responses := s.responses ++ [.ok (.bytes (text ++ [0x00]))] }) ∧
    (¬ Within s.cfg (text.length + 1) →
      exec (.serText text) s = .next { s with responses := s.responses ++ [.refused none] })

/-- 42_checksum R110. -/
def Obligations.ChkAppendAppendsTheTrailer : Prop :=
  ∀ (buf : Bytes) (s : State),
    let b := buf ++ [BitVec.ofNat 8 (256 - (buf.map BitVec.toNat).sum % 256)]
    (encode (.chkAppend buf)).code = 0x5 ∧
    (Within s.cfg (buf.length + 1) →
      exec (.chkAppend buf) s = .next { s with responses := s.responses ++ [.ok (.bytes b)] }) ∧
    (¬ Within s.cfg (buf.length + 1) →
      exec (.chkAppend buf) s = .next { s with responses := s.responses ++ [.refused none] }) ∧
    b.length = buf.length + 1 ∧ b.take buf.length = buf ∧ sum8 b = 0

/-- 42_checksum R111; that an operand which cannot be held is refused is 20_memory R57 (log entry 16). -/
def Obligations.ChkVerifyTestsTheSum : Prop :=
  ∀ (buf : Bytes) (s : State),
    (encode (.chkVerify buf)).code = 0x6 ∧
    (Within s.cfg buf.length → sum8 buf = 0 →
      exec (.chkVerify buf) s = .next { s with responses := s.responses ++ [.ok .nothing] }) ∧
    (Within s.cfg buf.length → sum8 buf ≠ 0 →
      exec (.chkVerify buf) s =
        .next { s with responses := s.responses ++ [.err (.checksumError (sum8 buf)) none] }) ∧
    (¬ Within s.cfg buf.length →
      exec (.chkVerify buf) s = .next { s with responses := s.responses ++ [.refused none] })

/-! ### The send commands -/

/-- 43_send R120. -/
def Obligations.SendDataWritesItsFrame : Prop :=
  ∀ (d : Byte) (p : Bytes) (s : State),
    let f := closedFrame s.cfg s.addr d p
    (encode (.sendData d p)).code = 0x7 ∧ f.length = p.length + 6 ∧
    (Within s.cfg (p.length + 6) → s.writeAnswer = .done →
      exec (.sendData d p) s = .next (afterSend s f .done (.ok .nothing))) ∧
    (∀ x n, Within s.cfg (p.length + 6) → s.writeAnswer = .failed x n →
      exec (.sendData d p) s = .next (afterSend s f (.failed x n) (.err (.transportFault x) none))) ∧
    (¬ Within s.cfg (p.length + 6) →
      exec (.sendData d p) s = .next { s with responses := s.responses ++ [.refused none] })

/-- 43_send R121. -/
def Obligations.SendPingWritesTheSixByteFrame : Prop :=
  ∀ (d : Byte) (s : State),
    let f := [s.cfg.start, 0x06, s.addr, d, s.cfg.start2,
      neg8 (BitVec.ofNat 8 (s.cfg.start.toNat + 6 + s.addr.toNat + d.toNat + s.cfg.start2.toNat))]
    (encode (.sendPing d)).code = 0x8 ∧
    (Within s.cfg 6 → s.writeAnswer = .done →
      exec (.sendPing d) s = .next (afterSend s f .done (.ok .nothing))) ∧
    (∀ x n, Within s.cfg 6 → s.writeAnswer = .failed x n →
      exec (.sendPing d) s = .next (afterSend s f (.failed x n) (.err (.transportFault x) none))) ∧
    (¬ Within s.cfg 6 → exec (.sendPing d) s = .next { s with responses := s.responses ++ [.refused none] }) ∧
    exec (.sendPing d) s = exec (.sendData d []) s

/-- 43_send R122. -/
def Obligations.SendU32WritesATenByteFrame : Prop :=
  ∀ (d : Byte) (v : U32) (s : State),
    let f := closedFrame s.cfg s.addr d (be32 v)
    (encode (.sendU32 d v)).code = 0x9 ∧ f.length = 10 ∧ f[1]? = some 10 ∧
    (Within s.cfg 10 → s.writeAnswer = .done →
      exec (.sendU32 d v) s = .next (afterSend s f .done (.ok .nothing))) ∧
    (∀ x n, Within s.cfg 10 → s.writeAnswer = .failed x n →
      exec (.sendU32 d v) s = .next (afterSend s f (.failed x n) (.err (.transportFault x) none))) ∧
    (¬ Within s.cfg 10 → exec (.sendU32 d v) s = .next { s with responses := s.responses ++ [.refused none] }) ∧
    ∀ (peer : State) (t : Duration), peer.readAnswer = f →
      ∃ m c, answer (.receive t) peer = some (.ok (.message m)) ∧ m.msgid = v ∧ m.payload = [c] ∧
        f.getLast? = some c

/-- 43_send R123. -/
def Obligations.SendU32sWritesEveryInteger : Prop :=
  ∀ (d : Byte) (vs : List U32) (s : State),
    let f := closedFrame s.cfg s.addr d (vs.flatMap be32)
    (encode (.sendU32s d vs)).code = 0xA ∧ f.length = 4 * vs.length + 6 ∧
    f[1]? = some (BitVec.ofNat 8 (4 * vs.length + 6)) ∧
    (Within s.cfg (4 * vs.length + 6) → s.writeAnswer = .done →
      exec (.sendU32s d vs) s = .next (afterSend s f .done (.ok .nothing))) ∧
    (∀ x n, Within s.cfg (4 * vs.length + 6) → s.writeAnswer = .failed x n →
      exec (.sendU32s d vs) s = .next (afterSend s f (.failed x n) (.err (.transportFault x) none))) ∧
    (¬ Within s.cfg (4 * vs.length + 6) →
      exec (.sendU32s d vs) s = .next { s with responses := s.responses ++ [.refused none] })

/-- 43_send R124. -/
def Obligations.SendTextWritesATerminatedPayload : Prop :=
  ∀ (d : Byte) (text : Bytes) (s : State),
    let f := closedFrame s.cfg s.addr d (text ++ [0x00])
    (encode (.sendText d text)).code = 0xB ∧ f.length = text.length + 7 ∧
    f[1]? = some (BitVec.ofNat 8 (text.length + 7)) ∧
    (Within s.cfg (text.length + 7) → s.writeAnswer = .done →
      exec (.sendText d text) s = .next (afterSend s f .done (.ok .nothing))) ∧
    (∀ x n, Within s.cfg (text.length + 7) → s.writeAnswer = .failed x n →
      exec (.sendText d text) s = .next (afterSend s f (.failed x n) (.err (.transportFault x) none))) ∧
    (¬ Within s.cfg (text.length + 7) →
      exec (.sendText d text) s = .next { s with responses := s.responses ++ [.refused none] })

/-- 43_send R125: a failed write is passed through unchanged after exactly one write, with no state of the block
changed and no retry, unless the capacity refusal came before any access. -/
def Obligations.FailedWriteIsPassedThrough : Prop :=
  ∀ (i : Instr) (s : State) (x : FaultCause) (n : Nat), isSend i = true → s.writeAnswer = .failed x n →
    ∃ t, exec i s = .next t ∧ t.addr = s.addr ∧ t.last = s.last ∧ t.lastValid = s.lastValid ∧ t.cfg = s.cfg ∧
      ((∃ f, t.calls = s.calls ++ [.write f (.failed x n)] ∧
          t.responses = s.responses ++ [.err (.transportFault x) none]) ∨
        (t.calls = s.calls ∧ s.cfg.bufMax ≠ none ∧ t.responses = s.responses ++ [.refused none]))

/-! ### The receive commands and the cache -/

/-- 44_receive R130. -/
def Obligations.ReadRawTestsLengthThenSum : Prop :=
  ∀ (t : Duration) (s : State),
    let r := s.readAnswer
    (encode (.readRaw t)).code = 0xC ∧
    (r.length < 6 → exec (.readRaw t) s = .next (afterReceive s t (.err .lengthError none))) ∧
    (6 ≤ r.length → sum8 r ≠ 0 →
      exec (.readRaw t) s = .next (afterReceive s t (.err (.checksumError (sum8 r)) none))) ∧
    (6 ≤ r.length → sum8 r = 0 → exec (.readRaw t) s = .next (afterReceive s t (.ok (.bytes r))))

/-- 44_receive R131. -/
def Obligations.AccumulateAppendsThenTestsTheNewBytes : Prop :=
  ∀ (buf : Bytes) (t : Duration) (s : State),
    let r := s.readAnswer
    (encode (.accumulate buf t)).code = 0xD ∧
    (Within s.cfg (buf.length + r.length) → sum8 r = 0 →
      exec (.accumulate buf t) s = .next (afterReceive s t (.ok (.bytes (buf ++ r))))) ∧
    (Within s.cfg (buf.length + r.length) → sum8 r ≠ 0 →
      exec (.accumulate buf t) s =
        .next (afterReceive s t (.err (.checksumError (sum8 r)) (some (buf ++ r))))) ∧
    (¬ Within s.cfg (buf.length + r.length) →
      exec (.accumulate buf t) s = .next (afterReceive s t (.refused (some buf))))

/-- 44_receive R132. -/
def Obligations.ReceiveDecodesOneFrame : Prop :=
  ∀ (t : Duration) (s : State),
    let r := s.readAnswer
    (encode (.receive t)).code = 0xE ∧
    (sum8 r ≠ 0 → exec (.receive t) s = .next (afterReceive s t (.err (.checksumError (sum8 r)) none))) ∧
    (r = [] → exec (.receive t) s = .next (afterReceive s t (.err .timeoutError none))) ∧
    (sum8 r = 0 → 1 ≤ r.length → r.length < 6 →
      exec (.receive t) s = .next (afterReceive s t (.err .lengthError none))) ∧
    (sum8 r = 0 → 6 ≤ r.length → r.length < 9 →
      exec (.receive t) s = .next (afterReceive s t (.err .decodeError none))) ∧
    (sum8 r = 0 → 9 ≤ r.length → ∃ m, IsMessageOf r m ∧
      exec (.receive t) s = .next { afterReceive s t (.ok (.message m)) with last := m, lastValid := true })

/-- 44_receive R133. -/
def Obligations.RdLastAnswersTheCache : Prop :=
  ∀ s : State,
    (encode .rdLast).code = 0xF ∧
    (s.lastValid = false → exec .rdLast s = .next { s with responses := s.responses ++ [.ok .noMessage] }) ∧
    (s.lastValid = true → exec .rdLast s = .next { s with responses := s.responses ++ [.ok (.message s.last)] })

/-- 20_memory R49 (4) and 44_receive R133: RD_LAST after a successful RECEIVE returns the message received; after any
other RECEIVE, and after every READ_RAW and ACCUMULATE, it returns what it returned before. -/
def Obligations.RdLastSeesTheLastSuccessfulReceive : Prop :=
  (∀ (t : Duration) (s u : State) (m : Message), exec (.receive t) s = .next u →
    answer (.receive t) s = some (.ok (.message m)) → answer .rdLast u = some (.ok (.message m))) ∧
  ∀ (i : Instr) (s u : State), exec i s = .next u →
    (∀ t m, i = .receive t → answer i s ≠ some (.ok (.message m))) → answer .rdLast u = answer .rdLast s

/-- 44_receive R135: the three read commands on one and the same transport answer. -/
def Obligations.ReadCommandsCompared : Prop :=
  ∀ (t : Duration) (s : State),
    let r := s.readAnswer
    (∀ m, answer (.receive t) s = some (.ok (.message m)) → answer (.readRaw t) s = some (.ok (.bytes r))) ∧
    (6 ≤ r.length → r.length ≤ 8 → sum8 r = 0 →
      answer (.readRaw t) s = some (.ok (.bytes r)) ∧ answer (.receive t) s = some (.err .decodeError none)) ∧
    (∀ e, answer (.receive t) s = some (.err (.checksumError e) none) ↔
      answer (.accumulate [] t) s = some (.err (.checksumError e) (some r))) ∧
    (1 ≤ r.length → r.length ≤ 5 → sum8 r ≠ 0 →
      answer (.readRaw t) s = some (.err .lengthError none) ∧
      answer (.receive t) s = some (.err (.checksumError (sum8 r)) none)) ∧
    (r = [] → answer (.readRaw t) s = some (.err .lengthError none) ∧
      answer (.receive t) s = some (.err .timeoutError none) ∧
      answer (.accumulate [] t) s = some (.ok (.bytes []))) ∧
    (1 ≤ r.length → r.length < 6 → ∃ e, answer (.receive t) s = some (.err e none))

/-- 44_receive R134: what a RECEIVE gives that gets exactly the frame another instance built. That a frame of 6 to 8
bytes is a DecodeError is the spec's decision D7 (log entry 12). -/
def Obligations.DecodeOfABuiltFrame : Prop :=
  ∀ (peer s : State) (d : Byte) (p : Bytes) (t : Duration),
    let f := closedFrame peer.cfg peer.addr d p
    s.readAnswer = f →
    sum8 f = 0 ∧
    (p.length ≤ 2 → answer (.receive t) s = some (.err .decodeError none)) ∧
    (∀ p0 p1 p2, p = [p0, p1, p2] → ∃ c, f[8]? = some c ∧
      answer (.receive t) s = some (.ok (.message
        { src := peer.addr, dst := d, length := 9, msgid := unBe32 p0 p1 p2 c, payload := [] }))) ∧
    (∀ p0 p1 p2 p3 rest, p = p0 :: p1 :: p2 :: p3 :: rest → ∃ c, f.getLast? = some c ∧
      answer (.receive t) s = some (.ok (.message
        { src := peer.addr, dst := d, length := p.length + 6, msgid := unBe32 p0 p1 p2 p3, payload := rest ++ [c] }))) ∧
    (∀ m, 4 ≤ p.length → answer (.receive t) s = some (.ok (.message m)) → p = be32 m.msgid ++ m.payload.dropLast)

/-- 44_receive R131, corner case 2: the sum of an accumulated buffer is the sum it had before the read. -/
def Obligations.AccumulationKeepsTheSum : Prop :=
  ∀ (buf b : Bytes) (t : Duration) (s : State), answer (.accumulate buf t) s = some (.ok (.bytes b)) →
    sum8 b = sum8 buf ∧ buf <+: b

/-! ### Rules of the whole machine -/

/-- 60_exceptions R150: every command ends in exactly one outcome, one its row of the table allows; a ChecksumError's
sum is not 0, and a refusal needs a finite BUF_MAX. -/
def Obligations.EveryCommandEndsInOneOutcome : Prop :=
  ∀ (i : Instr) (s : State), ∃ t r, exec i s = .next t ∧ t.responses = s.responses ++ [r] ∧
    statusCode r ∈ mayAnswer i ∧ (∀ e b, r = .err (.checksumError e) b → e ≠ 0) ∧
    (statusCode r = 6 → s.cfg.bufMax ≠ none)

/-- 60_exceptions R159: on an error no state of the block is written and no result is delivered; ACCUMULATE's response
carries the extended buffer, which is the spec's decision D8 (log entry 13), and every other one carries nothing; the
bytes read stay consumed. -/
def Obligations.ErrorsWriteNoState : Prop :=
  ∀ (i : Instr) (s t : State) (e : Error) (b : Option Bytes), exec i s = .next t →
    t.responses = s.responses ++ [.err e b] →
    t.addr = s.addr ∧ t.last = s.last ∧ t.lastValid = s.lastValid ∧ t.cfg = s.cfg ∧ t.pending = s.pending ∧
      (∀ buf d, i = .accumulate buf d → b = some (buf ++ s.readAnswer)) ∧
      ((∀ buf d, i ≠ .accumulate buf d) → b = none) ∧
      ∀ d, readTimeout i = some d → t.calls = s.calls ++ [.read d s.readAnswer] ∧ t.rxAnswers = s.rxAnswers.tail

/-- 10_state R23: only a successful RECEIVE writes `LAST`, all of it, with the message it returns. -/
def Obligations.OnlyASuccessfulReceiveWritesTheCache : Prop :=
  ∀ (i : Instr) (s t : State), exec i s = .next t →
    (t.last = s.last ∧ t.lastValid = s.lastValid ∧
      ∀ d m, i = .receive d → t.responses ≠ s.responses ++ [.ok (.message m)]) ∨
    ∃ d m, i = .receive d ∧ t.responses = s.responses ++ [.ok (.message m)] ∧ t.last = m ∧ t.lastValid = true

/-- 10_state R21 and R24, 70_reset_and_hazards R180: the address and the configuration never change and `LAST_VALID` is
never cleared, whatever the step does. -/
def Obligations.AddressAndConfigurationNeverChange : Prop :=
  ∀ s t : State, step s = .next t →
    t.addr = s.addr ∧ t.cfg = s.cfg ∧ (s.lastValid = true → t.lastValid = true)

/-- 10_state R32 and 20_memory R48: which command touches the transport, and how often. -/
def Obligations.TransportAccessOfEachCommand : Prop :=
  ∀ (i : Instr) (s t : State), exec i s = .next t →
    (isSend i = false → readTimeout i = none →
      t.calls = s.calls ∧ t.rxAnswers = s.rxAnswers ∧ t.txAnswers = s.txAnswers) ∧
    (isSend i = true → t.rxAnswers = s.rxAnswers ∧
      ((∃ f, t.calls = s.calls ++ [.write f s.writeAnswer] ∧ t.txAnswers = s.txAnswers.tail) ∨
        (t.calls = s.calls ∧ t.txAnswers = s.txAnswers ∧ t.responses = s.responses ++ [.refused none]))) ∧
    ∀ d, readTimeout i = some d →
      t.calls = s.calls ++ [.read d s.readAnswer] ∧ t.rxAnswers = s.rxAnswers.tail ∧ t.txAnswers = s.txAnswers

/-- 20_memory R54 and 93_implementation_defined U7: what one command puts on the bus is a prefix of one well-formed
frame from this node, the whole frame when the send answers Ok, and nothing when it is no send. -/
def Obligations.BusCarriesPartsOfFrames : Prop :=
  ∀ (i : Instr) (s t : State), exec i s = .next t →
    ∃ g, busBytes t.calls = busBytes s.calls ++ g ∧ (isSend i = false → g = []) ∧
      (isSend i = true → ∃ d f, WellFormedFrame s.cfg s.addr d f ∧ g <+: f ∧
        (t.responses = s.responses ++ [.ok .nothing] → g = f))

/-- 10_state R32: the frame-building, serializing and checksum commands are functions of their operands, `ADDR` and the
configuration: two states that agree on these get the same response, and nothing else happens. -/
def Obligations.BuildersArePure : Prop :=
  ∀ (i : Instr) (s u : State), isSend i = false → readTimeout i = none → i ≠ .rdLast →
    s.addr = u.addr → s.cfg = u.cfg →
    ∃ r, exec i s = .next { s with responses := s.responses ++ [r] } ∧
      exec i u = .next { u with responses := u.responses ++ [r] }

/-- 10_state R30: no command's response or transport access depends on the cache except RD_LAST's. -/
def Obligations.OnlyRdLastReadsTheCache : Prop :=
  ∀ (i : Instr) (s : State) (m : Message) (v : Bool), i ≠ .rdLast →
    ∃ t u, exec i s = .next t ∧ exec i { s with last := m, lastValid := v } = .next u ∧
      u.responses = t.responses ∧ u.calls = t.calls ∧ u.rxAnswers = t.rxAnswers ∧ u.txAnswers = t.txAnswers

/-- 10_state R24: no run can tell what the fields of an unwritten `LAST` hold. (The value State.reset gives them is the
model's choice, log entry 8: by this statement no response and no transport call rests on it.) -/
def Obligations.UnwrittenCacheIsUnobservable : Prop :=
  ∀ (k : Nat) (s u : State), SameButUnwrittenCache s u →
    (∀ t, Sys2Proof.core.run k s = .next t →
      ∃ v, Sys2Proof.core.run k u = .next v ∧ SameButUnwrittenCache t v ∧ v.responses = t.responses ∧
        v.calls = t.calls) ∧
    ∀ ρ, Sys2Proof.core.run k s = .refused ρ → Sys2Proof.core.run k u = .refused ρ

/-- 30_encoding R72 and 10_state R21: no receive command looks at the node's own address or at the markers. -/
def Obligations.ReceiversIgnoreAddressAndMarkers : Prop :=
  ∀ (i : Instr) (d : Duration) (s : State) (a x y : Byte), readTimeout i = some d →
    ∃ t, exec i s = .next t ∧
      exec i { s with addr := a, cfg := { s.cfg with start := x, start2 := y } } =
        .next { t with addr := a, cfg := { s.cfg with start := x, start2 := y } }

/-- 30_encoding R80: the expansions of the pseudo-commands, as laws. -/
def Obligations.PseudoCommandExpansions : Prop :=
  ∀ (s : State) (d : Byte) (p text : Bytes) (v : U32) (vs : List U32) (t : Duration),
    exec (.buildPing d) s = exec (.buildData d []) s ∧
    exec (.sendPing d) s = exec (.sendData d []) s ∧
    (∀ q, answer (.serU32 [] v) s = some (.ok (.bytes q)) → exec (.sendU32 d v) s = exec (.sendData d q) s) ∧
    (∀ q, answer (.serU32s [] vs) s = some (.ok (.bytes q)) → exec (.sendU32s d vs) s = exec (.sendData d q) s) ∧
    (∀ q, answer (.serText text) s = some (.ok (.bytes q)) → exec (.sendText d text) s = exec (.sendData d q) s) ∧
    (∀ f, answer (.buildData d p) s = some (.ok (.bytes f)) →
      ∃ u, exec (.sendData d p) s = .next u ∧ u.calls = s.calls ++ [.write f s.writeAnswer]) ∧
    exec (.buildData d p) s =
      exec (.chkAppend ([s.cfg.start, BitVec.ofNat 8 (p.length + 6), s.addr, d, s.cfg.start2] ++ p)) s ∧
    (6 ≤ s.readAnswer.length → ∀ e, answer (.readRaw t) s = some (.err e none) ↔
      answer (.chkVerify s.readAnswer) s = some (.err e none))

/-- 20_memory R57: no byte result, no buffer returned with an error, no payload of a received Message and no frame
handed to the transport is longer than BUF_MAX. A refusal returns at most ACCUMULATE's own operand, whatever its length
(log entry 14), and RD_LAST answers the cache as it stands (`ReadsStayWithinCapacity` bounds it). -/
def Obligations.NothingLongerThanCapacity : Prop :=
  ∀ (i : Instr) (s t : State) (r : Response), exec i s = .next t → t.responses = s.responses ++ [r] →
    (∀ b, r = .ok (.bytes b) → Within s.cfg b.length) ∧
    (∀ e b, r = .err e (some b) → Within s.cfg b.length) ∧
    (∀ m, r = .ok (.message m) → i ≠ .rdLast → Within s.cfg m.payload.length) ∧
    (∀ m, r = .ok (.message m) → i = .rdLast → s.lastValid = true ∧ m = s.last) ∧
    (∀ b, r = .refused (some b) → ∃ d, i = .accumulate b d) ∧
    ∀ f, f ∈ writtenFrames t.calls → f ∈ writtenFrames s.calls ∨ Within s.cfg f.length

/-- 30_encoding R62 (the spec's decision D4, log entry 11): the LENGTH byte is the low eight bits of the frame's length,
so it is truthful up to 249 payload bytes and never beyond. -/
def Obligations.LengthByteIsTruthfulUpTo249 : Prop :=
  ∀ (s : State) (d : Byte) (p : Bytes), s.cfg.bufMax = none →
    ∃ f l, answer (.buildData d p) s = some (.ok (.bytes f)) ∧ f[1]? = some l ∧ l.toNat = (p.length + 6) % 256 ∧
      (l.toNat = f.length ↔ p.length ≤ 249)

/-! ### Invariants -/

/-- 30_encoding R66 and R73: every frame handed to the transport is well-formed, kept by every step. -/
def Obligations.EveryWriteIsAWellFormedFrame : Prop :=
  ∀ s t : State, WritesAreFrames s → step s = .next t → WritesAreFrames t

/-- 10_state R22 and R23: a valid cache holds the Message of a zero-sum buffer that was really read, kept by every
step. -/
def Obligations.ValidCacheHoldsAReadMessage : Prop :=
  ∀ s t : State, CacheIsAReadMessage s → step s = .next t → CacheIsAReadMessage t

/-- 60_exceptions R153: no response carries a ChecksumError with the sum 0, kept by every step. -/
def Obligations.ChecksumErrorsStayNonzero : Prop :=
  ∀ s t : State, ChecksumErrorsCarryNonzero s → step s = .next t → ChecksumErrorsCarryNonzero t

/-- 20_memory R57: every read and the cached payload stay within BUF_MAX, so RD_LAST never needs to be refused (log
entry 15). -/
def Obligations.ReadsStayWithinCapacity : Prop :=
  ∀ s t : State, ReadsWithinCapacity s → step s = .next t → ReadsWithinCapacity t

/-- The invariants hold right after construction, whatever the parameters. -/
def Obligations.ConstructionMeetsTheInvariants : Prop :=
  ∀ (cfg : Config) (addr : Byte) (rx : List Bytes) (tx : List WriteAnswer),
    let s := State.construct cfg addr rx tx
    WritesAreFrames s ∧ CacheIsAReadMessage s ∧ ChecksumErrorsCarryNonzero s ∧ ReadsWithinCapacity s

/-- 30_encoding R81, 20_memory R49 and 44_receive R137: whatever the transport answers, the pending commands are
performed in order, each from the state the one before left; the k-th gives the k-th new response and at most one
transport call, and the responses and calls of earlier commands are not altered. -/
def Obligations.EveryPendingCommandIsAnswered : Prop :=
  ∀ s : State, (∀ r ∈ s.pending, r.code.toNat ≤ 0xF) →
    ∃ is t rs cs, s.pending.map decode = is.map Except.ok ∧
      Sys2Proof.core.run s.pending.length s = .next t ∧ t.pending = [] ∧
      PerformedInOrder is { s with pending := [] } rs cs t ∧ rs.length = s.pending.length ∧
      t.responses = s.responses ++ rs ∧ t.calls = s.calls ++ cs.flatMap Option.toList
end

