-- ==== Sys2Proof/Laws/Bytes.lean ====
section
/-! SUPPORT. Laws of the byte-sequence primitives and the checksum arithmetic (00_scope R9 to R14). -/

namespace Sys2Proof.Machine

@[simp] theorem append_eq (b c : Bytes) : append b c = b ++ c := rfl

@[simp] theorem overhead_eq : overhead = 6 := rfl

@[simp] theorem minFrame_eq : minFrame = 6 := rfl

@[simp] theorem sum8_nil : sum8 [] = 0 := rfl

/-- R9: the sum of a concatenation is the sum of the sums. -/
theorem sum8_append (a b : Bytes) : sum8 (a ++ b) = sum8 a + sum8 b := by
  simp [sum8, BitVec.ofNat_add]

theorem sum8_singleton (x : Byte) : sum8 [x] = x := by simp [sum8]

theorem sum8_cons (x : Byte) (b : Bytes) : sum8 (x :: b) = x + sum8 b := by
  rw [← List.singleton_append, sum8_append, sum8_singleton]

/-- R10: `Neg8` is the additive inverse modulo 256. -/
theorem neg8_eq_neg (s : Byte) : neg8 s = -s := by
  revert s; decide

theorem appendTrailer_eq (b : Bytes) : appendTrailer b = b ++ [chk b] := rfl

@[simp] theorem appendTrailer_length (b : Bytes) : (appendTrailer b).length = b.length + 1 := by
  simp [appendTrailer_eq]

/-- A trailer brings the sum to zero (42_checksum R112). -/
theorem sum8_appendTrailer (b : Bytes) : sum8 (appendTrailer b) = 0 := by
  rw [appendTrailer_eq, sum8_append, sum8_singleton, chk, neg8_eq_neg, ← sub_eq_add_neg, sub_self]

@[simp] theorem be32_length (v : U32) : (be32 v).length = 4 := rfl

theorem appendU32s_eq (buf : Bytes) (vs : List U32) : appendU32s buf vs = buf ++ vs.flatMap be32 := by
  induction vs generalizing buf with
  | nil => simp [appendU32s]
  | cons v vs ih =>
    have step : appendU32s buf (v :: vs) = appendU32s (appendU32 buf v) vs := rfl
    rw [step, ih]; simp [appendU32]

theorem flatMap_be32_length (vs : List U32) : (vs.flatMap be32).length = 4 * vs.length := by
  induction vs with
  | nil => rfl
  | cons v vs ih => simp [ih]; omega

@[simp] theorem appendU32s_length (buf : Bytes) (vs : List U32) :
    (appendU32s buf vs).length = buf.length + 4 * vs.length := by
  rw [appendU32s_eq, List.length_append, flatMap_be32_length]

/-- The one case in which a four-byte read answers (R13). -/
theorem memRead4_append (a rest : Bytes) (b0 b1 b2 b3 : Byte) :
    memRead4 (a ++ b0 :: b1 :: b2 :: b3 :: rest) a.length = .ok (unBe32 b0 b1 b2 b3) := by
  simp [memRead4]

end Sys2Proof.Machine
end

