-- ==== Sys2Proof/Laws/State.lean ====
section
/-! SUPPORT. One lemma per field of the state per update of it, so that no later proof unfolds a record update. -/

namespace Sys2Proof.Machine

variable (s : State)

@[simp] theorem State.respond_addr (r : Response) : (s.respond r).addr = s.addr := rfl
@[simp] theorem State.respond_last (r : Response) : (s.respond r).last = s.last := rfl
@[simp] theorem State.respond_lastValid (r : Response) : (s.respond r).lastValid = s.lastValid := rfl
@[simp] theorem State.respond_cfg (r : Response) : (s.respond r).cfg = s.cfg := rfl
@[simp] theorem State.respond_pending (r : Response) : (s.respond r).pending = s.pending := rfl
@[simp] theorem State.respond_responses (r : Response) : (s.respond r).responses = s.responses ++ [r] := rfl
@[simp] theorem State.respond_rxAnswers (r : Response) : (s.respond r).rxAnswers = s.rxAnswers := rfl
@[simp] theorem State.respond_txAnswers (r : Response) : (s.respond r).txAnswers = s.txAnswers := rfl
@[simp] theorem State.respond_calls (r : Response) : (s.respond r).calls = s.calls := rfl
@[simp] theorem State.respond_draws (r : Response) : (s.respond r).draws = s.draws := rfl

@[simp] theorem State.raise_addr (e : Error) : (s.raise e).addr = s.addr := rfl
@[simp] theorem State.raise_last (e : Error) : (s.raise e).last = s.last := rfl
@[simp] theorem State.raise_lastValid (e : Error) : (s.raise e).lastValid = s.lastValid := rfl
@[simp] theorem State.raise_cfg (e : Error) : (s.raise e).cfg = s.cfg := rfl
@[simp] theorem State.raise_pending (e : Error) : (s.raise e).pending = s.pending := rfl
@[simp] theorem State.raise_responses (e : Error) : (s.raise e).responses = s.responses ++ [.err e none] := rfl
@[simp] theorem State.raise_rxAnswers (e : Error) : (s.raise e).rxAnswers = s.rxAnswers := rfl
@[simp] theorem State.raise_txAnswers (e : Error) : (s.raise e).txAnswers = s.txAnswers := rfl
@[simp] theorem State.raise_calls (e : Error) : (s.raise e).calls = s.calls := rfl
@[simp] theorem State.raise_draws (e : Error) : (s.raise e).draws = s.draws := rfl

@[simp] theorem State.cache_addr (m : Message) : (s.cache m).addr = s.addr := rfl
@[simp] theorem State.cache_last (m : Message) : (s.cache m).last = m := rfl
@[simp] theorem State.cache_lastValid (m : Message) : (s.cache m).lastValid = true := rfl
@[simp] theorem State.cache_cfg (m : Message) : (s.cache m).cfg = s.cfg := rfl
@[simp] theorem State.cache_pending (m : Message) : (s.cache m).pending = s.pending := rfl
@[simp] theorem State.cache_responses (m : Message) : (s.cache m).responses = s.responses := rfl
@[simp] theorem State.cache_rxAnswers (m : Message) : (s.cache m).rxAnswers = s.rxAnswers := rfl
@[simp] theorem State.cache_txAnswers (m : Message) : (s.cache m).txAnswers = s.txAnswers := rfl
@[simp] theorem State.cache_calls (m : Message) : (s.cache m).calls = s.calls := rfl
@[simp] theorem State.cache_draws (m : Message) : (s.cache m).draws = s.draws := rfl

@[simp] theorem State.afterRead_addr (t : Duration) : (s.afterRead t).addr = s.addr := rfl
@[simp] theorem State.afterRead_last (t : Duration) : (s.afterRead t).last = s.last := rfl
@[simp] theorem State.afterRead_lastValid (t : Duration) : (s.afterRead t).lastValid = s.lastValid := rfl
@[simp] theorem State.afterRead_cfg (t : Duration) : (s.afterRead t).cfg = s.cfg := rfl
@[simp] theorem State.afterRead_pending (t : Duration) : (s.afterRead t).pending = s.pending := rfl
@[simp] theorem State.afterRead_responses (t : Duration) : (s.afterRead t).responses = s.responses := rfl
@[simp] theorem State.afterRead_rxAnswers (t : Duration) : (s.afterRead t).rxAnswers = s.rxAnswers.tail := rfl
@[simp] theorem State.afterRead_txAnswers (t : Duration) : (s.afterRead t).txAnswers = s.txAnswers := rfl
@[simp] theorem State.afterRead_calls (t : Duration) : (s.afterRead t).calls = s.calls ++ [.read t s.readAnswer] := rfl
@[simp] theorem State.afterRead_draws (t : Duration) : (s.afterRead t).draws = s.draws + 1 := rfl

@[simp] theorem State.afterWrite_addr (f : Bytes) : (s.afterWrite f).addr = s.addr := rfl
@[simp] theorem State.afterWrite_last (f : Bytes) : (s.afterWrite f).last = s.last := rfl
@[simp] theorem State.afterWrite_lastValid (f : Bytes) : (s.afterWrite f).lastValid = s.lastValid := rfl
@[simp] theorem State.afterWrite_cfg (f : Bytes) : (s.afterWrite f).cfg = s.cfg := rfl
@[simp] theorem State.afterWrite_pending (f : Bytes) : (s.afterWrite f).pending = s.pending := rfl
@[simp] theorem State.afterWrite_responses (f : Bytes) : (s.afterWrite f).responses = s.responses := rfl
@[simp] theorem State.afterWrite_rxAnswers (f : Bytes) : (s.afterWrite f).rxAnswers = s.rxAnswers := rfl
@[simp] theorem State.afterWrite_txAnswers (f : Bytes) : (s.afterWrite f).txAnswers = s.txAnswers.tail := rfl
@[simp] theorem State.afterWrite_calls (f : Bytes) : (s.afterWrite f).calls = s.calls ++ [.write f s.writeAnswer] := rfl
@[simp] theorem State.afterWrite_draws (f : Bytes) : (s.afterWrite f).draws = s.draws + 1 := rfl

@[simp] theorem State.withFetchWord_eq (n w : Nat) : s.withFetchWord n w = s.present (tableRequest n w) := rfl

@[simp] theorem State.present_addr (r : Request) : (s.present r).addr = s.addr := rfl
@[simp] theorem State.present_last (r : Request) : (s.present r).last = s.last := rfl
@[simp] theorem State.present_lastValid (r : Request) : (s.present r).lastValid = s.lastValid := rfl
@[simp] theorem State.present_cfg (r : Request) : (s.present r).cfg = s.cfg := rfl
@[simp] theorem State.present_pending (r : Request) : (s.present r).pending = r :: s.pending := rfl
@[simp] theorem State.present_responses (r : Request) : (s.present r).responses = s.responses := rfl
@[simp] theorem State.present_rxAnswers (r : Request) : (s.present r).rxAnswers = s.rxAnswers := rfl
@[simp] theorem State.present_txAnswers (r : Request) : (s.present r).txAnswers = s.txAnswers := rfl
@[simp] theorem State.present_calls (r : Request) : (s.present r).calls = s.calls := rfl
@[simp] theorem State.present_draws (r : Request) : (s.present r).draws = s.draws := rfl

/-- Two states with the same fields are the same state. -/
@[ext] theorem State.ext_fields {s u : State} (h_addr : s.addr = u.addr) (h_last : s.last = u.last) (h_lastValid : s.lastValid = u.lastValid) (h_cfg : s.cfg = u.cfg) (h_pending : s.pending = u.pending) (h_responses : s.responses = u.responses) (h_rxAnswers : s.rxAnswers = u.rxAnswers) (h_txAnswers : s.txAnswers = u.txAnswers) (h_calls : s.calls = u.calls) (h_draws : s.draws = u.draws) : s = u := by
  cases s; cases u; simp_all

end Sys2Proof.Machine
end

