-- ==== Sys2Proof/Laws/Ops.lean ====
section
/-! SUPPORT. One lemma per shared operation that says once everything it can do. -/

namespace Sys2Proof.Machine

open Sys2Proof.Safety

theorem fits_iff_within (c : Config) (n : Nat) : fits c n = true ↔ Within c n := by
  unfold fits Within
  cases c.bufMax <;> simp

theorem not_fits_iff (c : Config) (n : Nat) : fits c n = false ↔ ¬ Within c n := by
  rw [← fits_iff_within]; simp

/-- `fetch`: nothing pending, or the head of the port and the state without it. -/
theorem State.fetch_cases (s : State) :
    (s.pending = [] ∧ s.fetch = none) ∨
      (∃ r rest, s.pending = r :: rest ∧ s.fetch = some (r, { s with pending := rest })) := by
  unfold State.fetch
  cases h : s.pending with
  | nil => exact .inl ⟨rfl, rfl⟩
  | cons r rest => exact .inr ⟨r, rest, rfl, rfl⟩

/-- `deliver`: a result is the response, an error is raised. -/
theorem State.deliver_cases (s : State) (x : Except Error Result) :
    (∃ r, x = .ok r ∧ s.deliver x = s.respond (.ok r)) ∨
      (∃ e, x = .error e ∧ s.deliver x = s.respond (.err e none)) := by
  cases x with
  | ok r => exact .inl ⟨r, rfl, rfl⟩
  | error e => exact .inr ⟨e, rfl, rfl⟩

/-- `answerBytes`: the bytes when they can be held, the refusal when not. -/
theorem State.answerBytes_cases (s : State) (b : Bytes) :
    (Within s.cfg b.length ∧ s.answerBytes b = s.respond (.ok (.bytes b))) ∨
      (¬ Within s.cfg b.length ∧ s.answerBytes b = s.respond (.refused none)) := by
  unfold State.answerBytes
  by_cases h : Within s.cfg b.length
  · simp [h, (fits_iff_within _ _).2 h]
  · simp [h, (not_fits_iff _ _).2 h]

/-- `send`: refused before any access, or one write of the whole frame and the answer it got. -/
theorem State.send_cases (s : State) (f : Bytes) :
    (Within s.cfg f.length ∧ s.writeAnswer = .done ∧ s.send f = (s.afterWrite f).respond (.ok .nothing)) ∨
      (Within s.cfg f.length ∧ (∃ x n, s.writeAnswer = .failed x n ∧
        s.send f = (s.afterWrite f).respond (.err (.transportFault x) none))) ∨
      (¬ Within s.cfg f.length ∧ s.send f = s.respond (.refused none)) := by
  unfold State.send
  by_cases h : Within s.cfg f.length
  · rw [if_pos ((fits_iff_within _ _).2 h)]
    cases ha : s.writeAnswer with
    | done => exact .inl ⟨h, rfl, by simp [State.afterWrite]⟩
    | failed x n => exact .inr (.inl ⟨h, x, n, rfl, rfl⟩)
  · simp [h, (not_fits_iff _ _).2 h]

theorem limit_within (c : Config) (r : Bytes) : Within c (limit c r).length := by
  unfold limit Within
  cases c.bufMax with
  | none => simp
  | some m => intro k hk; cases hk; simp

/-- A read never returns more than `BUF_MAX` bytes (20_memory R57). -/
theorem State.readAnswer_within (s : State) : Within s.cfg s.readAnswer.length := limit_within _ _

theorem checksumTest_cases (b : Bytes) :
    (sum8 b = 0 ∧ checksumTest b = .ok ()) ∨
      (sum8 b ≠ 0 ∧ checksumTest b = .error (.checksumError (sum8 b))) := by
  by_cases h : sum8 b = 0
  · exact .inl ⟨h, if_pos h⟩
  · exact .inr ⟨h, if_neg h⟩

theorem rawTest_cases (r : Bytes) :
    (r.length < 6 ∧ rawTest r = .error .lengthError) ∨
      (6 ≤ r.length ∧ sum8 r ≠ 0 ∧ rawTest r = .error (.checksumError (sum8 r))) ∨
      (6 ≤ r.length ∧ sum8 r = 0 ∧ rawTest r = .ok ()) := by
  unfold rawTest
  by_cases h : r.length < 6
  · exact .inl ⟨h, if_pos h⟩
  · rw [if_neg (show ¬ r.length < minFrame from h)]
    rcases checksumTest_cases r with ⟨h0, e⟩ | ⟨h0, e⟩
    · exact .inr (.inr ⟨by omega, h0, e⟩)
    · exact .inr (.inl ⟨by omega, h0, e⟩)

/-- `decodeMessage` answers exactly on nine bytes or more, with the Message of the buffer (30_encoding R69). -/
theorem decodeMessage_cases (r : Bytes) :
    (r.length < 9 ∧ decodeMessage r = .error .decodeError) ∨
      (∃ m, IsMessageOf r m ∧ decodeMessage r = .ok m) := by
  unfold decodeMessage
  split
  · exact .inr ⟨_, by simp [IsMessageOf, memRead4], rfl⟩
  · rename_i hne
    refine .inl ⟨?_, rfl⟩
    match r, hne with
    | [], _ => simp
    | [_], _ => simp
    | [_, _], _ => simp
    | [_, _, _], _ => simp
    | [_, _, _, _], _ => simp
    | [_, _, _, _, _], _ => simp
    | [_, _, _, _, _, _], _ => simp
    | [_, _, _, _, _, _, _], _ => simp
    | [_, _, _, _, _, _, _, _], _ => simp
    | a :: b :: c :: d :: e :: f :: g :: h :: i :: rest, hne => exact absurd rfl (hne a b c d e f g h i rest)

theorem isMessageOf_unique {r : Bytes} {m m' : Message} (h : IsMessageOf r m) (h' : IsMessageOf r m') : m = m' := by
  obtain ⟨-, h2, h3, hl, hi, hp⟩ := h
  obtain ⟨-, h2', h3', hl', hi', hp'⟩ := h'
  cases m; cases m'
  simp_all

/-- RECEIVE's tests, each outcome with exactly the buffers that lead to it (44_receive R132). -/
theorem receiveTest_cases (r : Bytes) :
    (sum8 r ≠ 0 ∧ receiveTest r = .error (.checksumError (sum8 r))) ∨
      (r = [] ∧ receiveTest r = .error .timeoutError) ∨
      (sum8 r = 0 ∧ 1 ≤ r.length ∧ r.length < 6 ∧ receiveTest r = .error .lengthError) ∨
      (sum8 r = 0 ∧ 6 ≤ r.length ∧ r.length < 9 ∧ receiveTest r = .error .decodeError) ∨
      (sum8 r = 0 ∧ ∃ m, IsMessageOf r m ∧ receiveTest r = .ok m) := by
  unfold receiveTest
  rcases checksumTest_cases r with ⟨h0, e⟩ | ⟨h0, e⟩
  · rw [e]
    by_cases hn : r = []
    · simp [hn]
    have hpos : 1 ≤ r.length := List.length_pos_iff.2 hn
    by_cases h6 : r.length < 6
    · exact .inr (.inr (.inl ⟨h0, hpos, h6, by simp [hn, h6]⟩))
    rcases decodeMessage_cases r with ⟨h9, ed⟩ | ⟨m, hm, ed⟩
    · exact .inr (.inr (.inr (.inl ⟨h0, by omega, h9, by simp [hn, h6, ed]⟩)))
    · exact .inr (.inr (.inr (.inr ⟨h0, m, hm, by simp [hn, h6, ed]⟩)))
  · exact .inl ⟨h0, by rw [e]⟩

theorem header_length (s : State) (len dst : Byte) : (header s len dst).length = 5 := rfl

@[simp] theorem dataFrame_length (s : State) (dst : Byte) (p : Bytes) : (dataFrame s dst p).length = p.length + 6 := by
  simp [dataFrame, header]

@[simp] theorem pingFrame_length (s : State) (dst : Byte) : (pingFrame s dst).length = 6 := rfl

theorem dataFrame_eq (s : State) (dst : Byte) (p : Bytes) :
    ∃ c, dataFrame s dst p =
      s.cfg.start :: BitVec.ofNat 8 (p.length + 6) :: s.addr :: dst :: s.cfg.start2 :: (p ++ [c]) :=
  ⟨_, rfl⟩

theorem pingFrame_eq (s : State) (dst : Byte) : pingFrame s dst = dataFrame s dst [] := rfl

/-- Every frame the block builds is well-formed from its own address to the destination (30_encoding R73). -/
theorem dataFrame_wellFormed (s : State) (dst : Byte) (p : Bytes) :
    WellFormedFrame s.cfg s.addr dst (dataFrame s dst p) := by
  obtain ⟨c, h⟩ := dataFrame_eq s dst p
  refine ⟨by simp, by simp [h], by rw [dataFrame_length, h]; rfl, by simp [h], by simp [h], by simp [h], ?_⟩
  exact sum8_appendTrailer _

/-- The frame the block assembles is the closed form of 40_frame_build R90. -/
theorem closedFrame_eq_dataFrame (s : State) (d : Byte) (p : Bytes) :
    closedFrame s.cfg s.addr d p = dataFrame s d p := by
  have sum : ∀ (a b c e f : Byte) (n : Nat),
      BitVec.ofNat 8 (a.toNat + n % 256 + b.toNat + c.toNat + e.toNat + f.toNat) =
        a + (BitVec.ofNat 8 n + (b + (c + (e + f)))) := by
    intro a b c e f n
    have hm : BitVec.ofNat 8 (n % 256) = BitVec.ofNat 8 n := by apply BitVec.eq_of_toNat_eq; simp
    simp only [BitVec.ofNat_add, BitVec.ofNat_toNat, BitVec.setWidth_eq, hm, add_assoc]
  unfold closedFrame dataFrame
  rw [appendTrailer_eq]
  simp only [append_eq, header, overhead_eq]
  congr 2
  unfold chk
  simp only [List.cons_append, List.nil_append, sum8_cons]
  rw [sum]

end Sys2Proof.Machine
end

