-- ==== Sys2Proof/Laws/PerInstr.lean ====
section
/-! SUPPORT. Statements about the commands as syntax, one lemma per constructor. -/

namespace Sys2Proof.Laws.PresentsItsCode

/-- The request that presents a command is well-formed: its code is one of the sixteen and the operand lines the
command does not have are idle (30_encoding R76, R78). -/
def Statement (i : Instr) : Prop := (encode i).WellFormed = true

theorem buildData (dst : Byte) (payload : Bytes) : Statement (.buildData dst payload) := by
  simp [Statement, encode, idleRequest, Request.WellFormed, usesDst, usesBytes, usesValue, usesValues, usesTimeout]
theorem buildPing (dst : Byte) : Statement (.buildPing dst) := by
  simp [Statement, encode, idleRequest, Request.WellFormed, usesDst, usesBytes, usesValue, usesValues, usesTimeout]
theorem serU32 (buf : Bytes) (v : U32) : Statement (.serU32 buf v) := by
  simp [Statement, encode, idleRequest, Request.WellFormed, usesDst, usesBytes, usesValue, usesValues, usesTimeout]
theorem serU32s (buf : Bytes) (vs : List U32) : Statement (.serU32s buf vs) := by
  simp [Statement, encode, idleRequest, Request.WellFormed, usesDst, usesBytes, usesValue, usesValues, usesTimeout]
theorem serText (text : Bytes) : Statement (.serText text) := by
  simp [Statement, encode, idleRequest, Request.WellFormed, usesDst, usesBytes, usesValue, usesValues, usesTimeout]
theorem chkAppend (buf : Bytes) : Statement (.chkAppend buf) := by
  simp [Statement, encode, idleRequest, Request.WellFormed, usesDst, usesBytes, usesValue, usesValues, usesTimeout]
theorem chkVerify (buf : Bytes) : Statement (.chkVerify buf) := by
  simp [Statement, encode, idleRequest, Request.WellFormed, usesDst, usesBytes, usesValue, usesValues, usesTimeout]
theorem sendData (dst : Byte) (payload : Bytes) : Statement (.sendData dst payload) := by
  simp [Statement, encode, idleRequest, Request.WellFormed, usesDst, usesBytes, usesValue, usesValues, usesTimeout]
theorem sendPing (dst : Byte) : Statement (.sendPing dst) := by
  simp [Statement, encode, idleRequest, Request.WellFormed, usesDst, usesBytes, usesValue, usesValues, usesTimeout]
theorem sendU32 (dst : Byte) (v : U32) : Statement (.sendU32 dst v) := by
  simp [Statement, encode, idleRequest, Request.WellFormed, usesDst, usesBytes, usesValue, usesValues, usesTimeout]
theorem sendU32s (dst : Byte) (vs : List U32) : Statement (.sendU32s dst vs) := by
  simp [Statement, encode, idleRequest, Request.WellFormed, usesDst, usesBytes, usesValue, usesValues, usesTimeout]
theorem sendText (dst : Byte) (text : Bytes) : Statement (.sendText dst text) := by
  simp [Statement, encode, idleRequest, Request.WellFormed, usesDst, usesBytes, usesValue, usesValues, usesTimeout]
theorem readRaw (t : Duration) : Statement (.readRaw t) := by
  simp [Statement, encode, idleRequest, Request.WellFormed, usesDst, usesBytes, usesValue, usesValues, usesTimeout]
theorem accumulate (buf : Bytes) (t : Duration) : Statement (.accumulate buf t) := by
  simp [Statement, encode, idleRequest, Request.WellFormed, usesDst, usesBytes, usesValue, usesValues, usesTimeout]
theorem receive (t : Duration) : Statement (.receive t) := by
  simp [Statement, encode, idleRequest, Request.WellFormed, usesDst, usesBytes, usesValue, usesValues, usesTimeout]
theorem rdLast : Statement .rdLast := by
  simp [Statement, encode, idleRequest, Request.WellFormed, usesDst, usesBytes, usesValue, usesValues, usesTimeout]

end Sys2Proof.Laws.PresentsItsCode
end

