-- ==== Sys2Proof/Laws/Step.lean ====
section
/-! SUPPORT. What a command, and what a step, can do, said once. -/

namespace Sys2Proof.Machine

open Sys2Proof.Safety

/-- Every command ends in a next state (30_encoding R81). -/
theorem exec_next (i : Instr) (s : State) : ∃ t, exec i s = .next t := by
  cases i <;> exact ⟨_, rfl⟩

/-- No command looks at the requests that wait behind it (20_memory R49). -/
theorem exec_pending {i : Instr} {s t : State} (p : List Request) (h : exec i s = .next t) :
    exec i { s with pending := p } = .next { t with pending := p } := by
  have respond : ∀ (u : State) (r : Response),
      ({ u with pending := p } : State).respond r = { u.respond r with pending := p } := fun _ _ => rfl
  have deliver : ∀ (u : State) (x : Except Error Result),
      ({ u with pending := p } : State).deliver x = { u.deliver x with pending := p } := by
    rintro u (_ | _) <;> rfl
  have answerBytes : ∀ b, ({ s with pending := p } : State).answerBytes b =
      { s.answerBytes b with pending := p } := by
    intro b; simp only [State.answerBytes, respond]; split <;> rfl
  have send : ∀ f, ({ s with pending := p } : State).send f = { s.send f with pending := p } := by
    intro f
    have e : ({ s with pending := p } : State).writeAnswer = s.writeAnswer := rfl
    simp only [State.send, e]
    split
    · split <;> rfl
    · rfl
  have read : ({ s with pending := p } : State).readAnswer = s.readAnswer := rfl
  cases i <;> cases h <;> refine congrArg Host.Outcome.next ?_
  case chkVerify buf => dsimp only; cases fits s.cfg buf.length <;> first | exact respond s _ | exact deliver s _
  case readRaw => exact deliver (s.afterRead _) _
  case accumulate buf d =>
    simp only [read]
    cases fits s.cfg (buf.length + s.readAnswer.length) <;> rcases checksumTest s.readAnswer with _ | _ <;> rfl
  case receive => simp only [read]; rcases receiveTest s.readAnswer with _ | _ <;> rfl
  case rdLast =>
    rcases s with ⟨_, _, _ | _, _, _, _, _, _, _, _⟩ <;> rfl
  all_goals first | exact answerBytes _ | exact send _

/-- A command that is neither a send nor a read only answers. -/
theorem exec_quiet {i : Instr} {s t : State} (hs : isSend i = false) (hr : readTimeout i = none)
    (h : exec i s = .next t) : ∃ r, t = s.respond r ∧ statusCode r ∈ mayAnswer i := by
  have bytes : ∀ b, t = s.answerBytes b → ∃ r, t = s.respond r ∧ (statusCode r = 0 ∨ statusCode r = 6) := by
    rintro b rfl
    rcases s.answerBytes_cases b with ⟨-, e⟩ | ⟨-, e⟩
    · exact ⟨_, e, .inl rfl⟩
    · exact ⟨_, e, .inr rfl⟩
  cases i <;> simp only [isSend, readTimeout, Bool.true_eq_false, reduceCtorEq] at hs hr <;> cases h
  case chkVerify buf =>
    split
    · rcases checksumTest_cases buf with ⟨-, e⟩ | ⟨-, e⟩
      · exact ⟨_, by rw [e]; rfl, by simp [statusCode, mayAnswer]⟩
      · exact ⟨.err (.checksumError (sum8 buf)) none, by rw [e]; rfl, by simp [statusCode, errorCode, mayAnswer]⟩
    · exact ⟨_, rfl, by simp [statusCode, mayAnswer]⟩
  case rdLast => cases s.lastValid <;> exact ⟨_, rfl, by simp [statusCode, mayAnswer]⟩
  all_goals
    obtain ⟨r, e, hc⟩ := bytes _ rfl
    exact ⟨r, e, by simpa [mayAnswer] using hc⟩

/-- A send is `State.send` of a frame the block built. -/
theorem exec_send {i : Instr} {s t : State} (hs : isSend i = true) (h : exec i s = .next t) :
    ∃ dst p, t = s.send (dataFrame s dst p) := by
  cases i <;> simp only [isSend, Bool.false_eq_true] at hs <;> cases h
  case sendPing dst => exact ⟨dst, [], rfl⟩
  all_goals exact ⟨_, _, rfl⟩

/-- A receive command reads once and answers; RECEIVE writes the cache exactly when it succeeds. -/
theorem exec_read {i : Instr} {s t : State} {d : Duration} (hr : readTimeout i = some d) (h : exec i s = .next t) :
    (∃ r, t = (s.afterRead d).respond r ∧ statusCode r ∈ mayAnswer i ∧ (∀ m, r ≠ .ok (.message m)) ∧
      (∀ e b, r = .err (.checksumError e) b → e = sum8 s.readAnswer ∧ e ≠ 0)) ∨
    (i = .receive d ∧ ∃ m, sum8 s.readAnswer = 0 ∧ IsMessageOf s.readAnswer m ∧
      t = ((s.afterRead d).cache m).respond (.ok (.message m))) := by
  cases i <;> simp only [readTimeout, Option.some.injEq, reduceCtorEq] at hr <;> subst hr <;> cases h
  case readRaw =>
    refine .inl ?_
    rcases rawTest_cases s.readAnswer with ⟨-, e⟩ | ⟨-, h0, e⟩ | ⟨-, -, e⟩ <;> rw [e]
    · exact ⟨_, rfl, by simp [statusCode, errorCode, mayAnswer], by simp, by simp⟩
    · exact ⟨_, rfl, by simp [statusCode, errorCode, mayAnswer], by simp, by rintro _ _ ⟨⟩; exact ⟨rfl, h0⟩⟩
    · exact ⟨_, rfl, by simp [statusCode, mayAnswer], by simp, by simp⟩
  case accumulate buf =>
    refine .inl ?_
    split
    · rcases checksumTest_cases s.readAnswer with ⟨-, e⟩ | ⟨h0, e⟩ <;> rw [e]
      · exact ⟨_, rfl, by simp [statusCode, mayAnswer], by simp, by simp⟩
      · exact ⟨_, rfl, by simp [statusCode, errorCode, mayAnswer], by simp, by rintro _ _ ⟨⟩; exact ⟨rfl, h0⟩⟩
    · exact ⟨_, rfl, by simp [statusCode, mayAnswer], by simp, by simp⟩
  case receive =>
    rcases receiveTest_cases s.readAnswer with ⟨h0, e⟩ | ⟨-, e⟩ | ⟨-, -, -, e⟩ | ⟨-, -, -, e⟩ | ⟨h0, m, hm, e⟩ <;> rw [e]
    · exact .inl ⟨_, rfl, by simp [statusCode, errorCode, mayAnswer], by simp, by rintro _ _ ⟨⟩; exact ⟨rfl, h0⟩⟩
    · exact .inl ⟨_, rfl, by simp [statusCode, errorCode, mayAnswer], by simp, by simp⟩
    · exact .inl ⟨_, rfl, by simp [statusCode, errorCode, mayAnswer], by simp, by simp⟩
    · exact .inl ⟨_, rfl, by simp [statusCode, errorCode, mayAnswer], by simp, by simp⟩
    · exact .inr ⟨rfl, m, h0, hm, rfl⟩

/-- What a command does, by what it touches: it only answers, it sends one frame, or it reads once. -/
theorem exec_cases {i : Instr} {s t : State} (h : exec i s = .next t) :
    (isSend i = false ∧ readTimeout i = none ∧ ∃ r, t = s.respond r ∧ statusCode r ∈ mayAnswer i) ∨
    (isSend i = true ∧ readTimeout i = none ∧ ∃ dst p, t = s.send (dataFrame s dst p)) ∨
    (isSend i = false ∧ ∃ d, readTimeout i = some d ∧
      ((∃ r, t = (s.afterRead d).respond r ∧ statusCode r ∈ mayAnswer i ∧ (∀ m, r ≠ .ok (.message m)) ∧
          (∀ e b, r = .err (.checksumError e) b → e = sum8 s.readAnswer ∧ e ≠ 0)) ∨
        (i = .receive d ∧ ∃ m, sum8 s.readAnswer = 0 ∧ IsMessageOf s.readAnswer m ∧
          t = ((s.afterRead d).cache m).respond (.ok (.message m))))) := by
  cases hs : isSend i with
  | true =>
    obtain ⟨d, p, e⟩ := exec_send hs h
    refine .inr (.inl ⟨rfl, ?_, d, p, e⟩)
    cases i <;> simp_all [isSend, readTimeout]
  | false =>
    cases hr : readTimeout i with
    | none => exact .inl ⟨rfl, rfl, exec_quiet hs hr h⟩
    | some d => exact .inr (.inr ⟨rfl, d, rfl, exec_read hr h⟩)

/-- The response a command that goes on gives is the newest in the next state. -/
theorem answer_of_next {i : Instr} {s t : State} (h : exec i s = .next t) : answer i s = t.responses.getLast? := by
  unfold answer; rw [h]

/-- A step that goes on is idle, or performs the command at the head of the port. -/
theorem step_cases {s t : State} (h : step s = .next t) :
    (s.pending = [] ∧ t = s) ∨
      (∃ r rest i, s.pending = r :: rest ∧ decode r = .ok i ∧ exec i { s with pending := rest } = .next t) := by
  unfold step at h
  rcases s.fetch_cases with ⟨hp, e⟩ | ⟨r, rest, hp, e⟩ <;> rw [e] at h
  · cases h; exact .inl ⟨hp, rfl⟩
  · simp only at h
    split at h
    · exact .inr ⟨r, rest, _, hp, ‹_›, h⟩
    · cases h

/-- A run of `k + 1` steps of any machine is a step and then a run of `k`. -/
theorem core_run_succ_next (M : Host.Core) {k : Nat} {s t : M.State} (h : M.step s = .next t) :
    M.run (k + 1) s = M.run k t := by simp [Host.Core.run, h]

/-- A run of any machine stops at a refusal. -/
theorem core_run_succ_refused (M : Host.Core) {k : Nat} {s : M.State} {ρ : M.Refusal} (h : M.step s = .refused ρ) :
    M.run (k + 1) s = .refused ρ := by simp [Host.Core.run, h]

/-- A run of `k + 1` steps is a step and then a run of `k`. -/
theorem run_succ_next {k : Nat} {s t : State} (h : step s = .next t) :
    Sys2Proof.core.run (k + 1) s = Sys2Proof.core.run k t := core_run_succ_next Sys2Proof.core h

/-- A run stops at a refusal. -/
theorem run_succ_refused {k : Nat} {s : State} {ρ : Refusal} (h : step s = .refused ρ) :
    Sys2Proof.core.run (k + 1) s = .refused ρ := core_run_succ_refused Sys2Proof.core h

end Sys2Proof.Machine
end

