-- ==== Sys2Proof/Tests/Slice0.lean ====
section
/-! SUPPORT. Tests: expected results are the vectors of 95_test_vectors.md (their ids stand at each test) or worked from
the rule named. Then one witness per statement of Obligations.lean that has hypotheses, a clause at a boundary value. -/

namespace Sys2Proof.Tests

open Sys2Proof Sys2Proof.Machine Sys2Proof.Safety

/-- The illustrative markers of 93_implementation_defined G1, used by the vectors only. -/
def cfg : Config := { start := 0x01, start2 := 0x02, bufMax := none }

/-- The same with a finite BUF_MAX. -/
def cfgMax (n : Nat) : Config := { cfg with bufMax := some n }

/-- A node whose transport answers the next read with `r` and the next write with success. -/
def node (addr : Byte) (r : Bytes) : State := State.construct cfg addr [r] [.done]

/-- The same with a finite BUF_MAX. -/
def nodeMax (n : Nat) (addr : Byte) (r : Bytes) : State := State.construct (cfgMax n) addr [r] [.done]

/-- A node whose next write fails. -/
def failing : State := State.construct cfg 0x01 [] [.failed ⟨7⟩ 3]

def t0 : Duration := ⟨0⟩

/-- The transport calls after a command. -/
def callsAfter (i : Instr) (s : State) : List Call :=
  match exec i s with
  | .next t => t.calls
  | .fault _ => []
  | .refused _ => []

/-- The cache after a command. -/
def cacheAfter (i : Instr) (s : State) : Option (Bool × Message) :=
  match exec i s with
  | .next t => some (t.lastValid, t.last)
  | .fault _ => none
  | .refused _ => none

/-! ### Well-formedness: an ill-formed term for each check -/

theorem test_wellFormed_markers_differ : cfg.WellFormed = true := by decide
theorem test_illFormed_equal_markers : ({ cfg with start2 := 0x01 } : Config).WellFormed = false := by decide
theorem test_illFormed_code : (idleRequest 0x10).WellFormed = false := by decide
theorem test_illFormed_dst : ({ idleRequest 0xF with dst := 1 } : Request).WellFormed = false := by decide
theorem test_illFormed_bytes : ({ idleRequest 0x1 with bytes := [0] } : Request).WellFormed = false := by decide
theorem test_illFormed_value : ({ idleRequest 0x0 with value := 1 } : Request).WellFormed = false := by decide
theorem test_illFormed_values : ({ idleRequest 0x2 with values := [0] } : Request).WellFormed = false := by decide
theorem test_illFormed_timeout : ({ idleRequest 0x7 with timeout := ⟨1⟩ } : Request).WellFormed = false := by decide

/-! ### Decoding: the code of each command as 30_encoding R76 gives it -/

/-- A request with every operand line driven. -/
def full (code : Byte) : Request :=
  { code := code, dst := 0x02, bytes := [0xAA, 0xBB], value := 0x12345678, values := [1, 2], timeout := ⟨5⟩ }

theorem test_decode_buildData : decode (full 0b0000) = .ok (.buildData 0x02 [0xAA, 0xBB]) := rfl
theorem test_decode_buildPing : decode (full 0b0001) = .ok (.buildPing 0x02) := rfl
theorem test_decode_serU32 : decode (full 0b0010) = .ok (.serU32 [0xAA, 0xBB] 0x12345678) := rfl
theorem test_decode_serU32s : decode (full 0b0011) = .ok (.serU32s [0xAA, 0xBB] [1, 2]) := rfl
theorem test_decode_serText : decode (full 0b0100) = .ok (.serText [0xAA, 0xBB]) := rfl
theorem test_decode_chkAppend : decode (full 0b0101) = .ok (.chkAppend [0xAA, 0xBB]) := rfl
theorem test_decode_chkVerify : decode (full 0b0110) = .ok (.chkVerify [0xAA, 0xBB]) := rfl
theorem test_decode_sendData : decode (full 0b0111) = .ok (.sendData 0x02 [0xAA, 0xBB]) := rfl
theorem test_decode_sendPing : decode (full 0b1000) = .ok (.sendPing 0x02) := rfl
theorem test_decode_sendU32 : decode (full 0b1001) = .ok (.sendU32 0x02 0x12345678) := rfl
theorem test_decode_sendU32s : decode (full 0b1010) = .ok (.sendU32s 0x02 [1, 2]) := rfl
theorem test_decode_sendText : decode (full 0b1011) = .ok (.sendText 0x02 [0xAA, 0xBB]) := rfl
theorem test_decode_readRaw : decode (full 0b1100) = .ok (.readRaw ⟨5⟩) := rfl
theorem test_decode_accumulate : decode (full 0b1101) = .ok (.accumulate [0xAA, 0xBB] ⟨5⟩) := rfl
theorem test_decode_receive : decode (full 0b1110) = .ok (.receive ⟨5⟩) := rfl
theorem test_decode_rdLast : decode (full 0b1111) = .ok .rdLast := rfl
/-- 30_encoding R78: a wider code is never executed as some other command. -/
theorem test_decode_reserved : decode (full 0x17) = .error (.reservedCode 0x17) := rfl
theorem test_tableWord_receive : decodeTableWord 8 0xE = some (.receive ⟨0⟩) := by decide
theorem test_tableWord_wide : decodeTableWord 16 0x107 = none := by decide

/-! ### Primitives -/

/-- The Neg8 table of 95_test_vectors part 2. -/
theorem test_neg8_table : [0x00#8, 0x01#8, 0x02#8, 0x7F#8, 0x80#8, 0x81#8, 0xFE#8, 0xFF#8].map neg8 =
    [0x00#8, 0xFF#8, 0xFE#8, 0x81#8, 0x80#8, 0x7F#8, 0x02#8, 0x01#8] := by decide
/-- V-U10 and V-U11. -/
theorem test_memRead4 : memRead4 [0xAA, 0x12, 0x34, 0x56, 0x78] 1 = .ok 0x12345678 ∧
    memRead4 [0x12, 0x34, 0x56] 0 = .error .decodeError := ⟨rfl, rfl⟩

/-! ### The commands -/

/-- V-B1 (S-1). -/
theorem test_buildData : answer (.buildData 0x02 [0xAA, 0xBB]) (node 0x01 []) =
    some (.ok (.bytes [0x01, 0x08, 0x01, 0x02, 0x02, 0xAA, 0xBB, 0x8D])) := by decide
/-- V-B7: trailer 0x00. -/
theorem test_buildData_zero_trailer : answer (.buildData 0x02 [0xF3]) (node 0x01 []) =
    some (.ok (.bytes [0x01, 0x07, 0x01, 0x02, 0x02, 0xF3, 0x00])) := by decide
/-- V-B2 (S-2). -/
theorem test_buildPing : answer (.buildPing 0x05) (node 0x01 []) =
    some (.ok (.bytes [0x01, 0x06, 0x01, 0x05, 0x02, 0xF1])) := by decide
/-- V-B6: destination = own address. -/
theorem test_buildPing_self : answer (.buildPing 0x07) (node 0x07 []) =
    some (.ok (.bytes [0x01, 0x06, 0x07, 0x07, 0x02, 0xE9])) := by decide
/-- V-U6. -/
theorem test_serU32 : answer (.serU32 [0xAA] 0x12345678) (node 0x01 []) =
    some (.ok (.bytes [0xAA, 0x12, 0x34, 0x56, 0x78])) := by decide
/-- V-U4. -/
theorem test_serU32_top : answer (.serU32 [] 0x01000000) (node 0x01 []) =
    some (.ok (.bytes [0x01, 0x00, 0x00, 0x00])) := by decide
/-- V-U8. -/
theorem test_serU32s : answer (.serU32s [] [1, 2]) (node 0x01 []) =
    some (.ok (.bytes [0, 0, 0, 1, 0, 0, 0, 2])) := by decide
/-- V-U7. -/
theorem test_serU32s_empty : answer (.serU32s [] []) (node 0x01 []) = some (.ok (.bytes [])) := by decide
/-- V-S3. -/
theorem test_serText : answer (.serText [0x41, 0x00, 0x42]) (node 0x01 []) =
    some (.ok (.bytes [0x41, 0x00, 0x42, 0x00])) := by decide
/-- V-S1. -/
theorem test_serText_empty : answer (.serText []) (node 0x01 []) = some (.ok (.bytes [0x00])) := by decide
/-- V-C3. -/
theorem test_chkAppend : answer (.chkAppend [0xFF, 0xFF]) (node 0x01 []) =
    some (.ok (.bytes [0xFF, 0xFF, 0x02])) := by decide
/-- V-C1. -/
theorem test_chkAppend_empty : answer (.chkAppend []) (node 0x01 []) = some (.ok (.bytes [0x00])) := by decide
/-- V-C8. -/
theorem test_chkVerify : answer (.chkVerify [0x01, 0x02, 0x03, 0xFA]) (node 0x01 []) = some (.ok .nothing) := by decide
/-- V-C9. -/
theorem test_chkVerify_damaged : answer (.chkVerify [0x01, 0x02, 0x03, 0xFB]) (node 0x01 []) =
    some (.err (.checksumError 0x01) none) := by decide
/-- V-T1. -/
theorem test_sendData : callsAfter (.sendData 0x02 [0xAA, 0xBB]) (node 0x01 []) =
    [.write [0x01, 0x08, 0x01, 0x02, 0x02, 0xAA, 0xBB, 0x8D] .done] := by decide
/-- V-T11. -/
theorem test_sendData_fails : answer (.sendData 0x02 []) failing =
    some (.err (.transportFault ⟨7⟩) none) := by decide
/-- V-T2. -/
theorem test_sendPing : callsAfter (.sendPing 0x05) (node 0x01 []) =
    [.write [0x01, 0x06, 0x01, 0x05, 0x02, 0xF1] .done] := by decide
/-- P4's refusal, on the shortest frame: nothing reaches the transport (20_memory R57). -/
theorem test_sendPing_refused : answer (.sendPing 0x05) (nodeMax 5 0x01 []) = some (.refused none) ∧
    callsAfter (.sendPing 0x05) (nodeMax 5 0x01 []) = [] := by decide
/-- V-T3. -/
theorem test_sendU32 : callsAfter (.sendU32 0x02 0x12345678) (node 0x01 []) =
    [.write [0x01, 0x0A, 0x01, 0x02, 0x02, 0x12, 0x34, 0x56, 0x78, 0xDC] .done] := by decide
/-- V-T6. -/
theorem test_sendU32s : callsAfter (.sendU32s 0x02 [1, 2]) (node 0x01 []) =
    [.write [0x01, 0x0E, 0x01, 0x02, 0x02, 0, 0, 0, 1, 0, 0, 0, 2, 0xE9] .done] := by decide
/-- V-T7. -/
theorem test_sendU32s_empty : callsAfter (.sendU32s 0x05 []) (node 0x01 []) =
    [.write [0x01, 0x06, 0x01, 0x05, 0x02, 0xF1] .done] := by decide
/-- V-T8 (S-3). -/
theorem test_sendText : callsAfter (.sendText 0x02 [0x6F, 0x6B]) (node 0x01 []) =
    [.write [0x01, 0x09, 0x01, 0x02, 0x02, 0x6F, 0x6B, 0x00, 0x17] .done] := by decide
/-- V-T9. -/
theorem test_sendText_empty : callsAfter (.sendText 0x02 []) (node 0x01 []) =
    [.write [0x01, 0x07, 0x01, 0x02, 0x02, 0x00, 0xF3] .done] := by decide
/-- V-R6: the ping, and the ping with a damaged trailer. -/
theorem test_readRaw : answer (.readRaw t0) (node 0x05 [0x01, 0x06, 0x01, 0x05, 0x02, 0xF1]) =
      some (.ok (.bytes [0x01, 0x06, 0x01, 0x05, 0x02, 0xF1])) ∧
    answer (.readRaw t0) (node 0x05 [0x01, 0x06, 0x01, 0x05, 0x02, 0xF2]) =
      some (.err (.checksumError 0x01) none) := by decide
/-- V-R3: READ_RAW tests the length first. -/
theorem test_readRaw_short : answer (.readRaw t0) (node 0x05 [0x01, 0x02, 0x03]) =
    some (.err .lengthError none) := by decide
/-- V-R2 and V-R3. -/
theorem test_accumulate : answer (.accumulate [0xAA] t0) (node 0x05 [0x01, 0x02, 0xFD]) =
      some (.ok (.bytes [0xAA, 0x01, 0x02, 0xFD])) ∧
    answer (.accumulate [0xAA] t0) (node 0x05 [0x01, 0x02, 0x03]) =
      some (.err (.checksumError 0x06) (some [0xAA, 0x01, 0x02, 0x03])) := by decide
/-- 20_memory R57: refused after the read, the buffer as it was, the bytes consumed. -/
theorem test_accumulate_refused : answer (.accumulate [0xAA] t0) (nodeMax 3 0x05 [0x01, 0x02, 0xFD]) =
      some (.refused (some [0xAA])) ∧
    callsAfter (.accumulate [0xAA] t0) (nodeMax 3 0x05 [0x01, 0x02, 0xFD]) = [.read t0 [0x01, 0x02, 0xFD]] := by decide
/-- V-R15: markers and LENGTH are not examined; the cache is written. -/
theorem test_receive : cacheAfter (.receive t0)
      (node 0x02 [0x7E, 0x63, 0x09, 0x08, 0x7E, 0xDE, 0xAD, 0xBE, 0xEF, 0x42, 0x16]) =
    some (true, { src := 0x09, dst := 0x08, length := 11, msgid := 0xDEADBEEF, payload := [0x42, 0x16] }) := by decide
/-- V-R1, V-R2, V-R3, V-R5, V-R13: the errors in their order. -/
theorem test_receive_errors : answer (.receive t0) (node 0x05 []) = some (.err .timeoutError none) ∧
    answer (.receive t0) (node 0x05 [0x01, 0x02, 0xFD]) = some (.err .lengthError none) ∧
    answer (.receive t0) (node 0x05 [0x01, 0x02, 0x03]) = some (.err (.checksumError 0x06) none) ∧
    answer (.receive t0) (node 0x05 [0, 0, 0, 0, 0, 0]) = some (.err .decodeError none) ∧
    answer (.receive t0) (node 0x05 [0x01, 0x08, 0x01, 0x02, 0x02, 0xAA, 0xBB, 0x8E]) =
      some (.err (.checksumError 0x01) none) := by decide
/-- 44_receive R133, on a freshly constructed instance. -/
theorem test_rdLast_none : answer .rdLast (node 0x01 []) = some (.ok .noMessage) := by decide
/-- 44_receive R133, after V-R8's message. -/
theorem test_rdLast : answer .rdLast ((node 0x01 []).cache
      { src := 0x01, dst := 0x02, length := 9, msgid := 0x6F6B0017, payload := [] }) =
    some (.ok (.message { src := 0x01, dst := 0x02, length := 9, msgid := 0x6F6B0017, payload := [] })) := by decide

/-- The first step after reset runs the presented command (BUILD_PING, row 0x1). -/
theorem test_first_step : step (State.reset.withFetchWord 8 0x1) = exec (.buildPing 0) State.reset := rfl

/-! ### Witnesses -/

/-- A node with one request pending. -/
def waiting (code : Byte) : State := { node 0x01 [] with pending := [full code] }

theorem witness_StepRunsTheDecodedCommand : (waiting 0x1).pending = [full 0x1] ∧
    decode (full 0x1) = .ok (.buildPing 0x02) ∧ (node 0x01 []).pending = [] := ⟨rfl, rfl, rfl⟩
theorem witness_OnlyCodesAboveFifteenAreRefused : (full 0xF).code.toNat ≤ 0xF ∧
    (waiting 0x10).pending = [full 0x10] ∧ 0xF < (full 0x10).code.toNat := ⟨by decide, rfl, by decide⟩
theorem witness_DecodeAndEncodeAgree : (encode (.sendU32 0x02 7)).WellFormed = true ∧
    decode (encode (.sendU32 0x02 7)) = .ok (.sendU32 0x02 7) := ⟨by decide, rfl⟩
theorem witness_ByteSumIsModulo256 : [0x01#8, 0x02#8].Perm [0x02#8, 0x01#8] := by decide
theorem witness_MemReadNeverLeavesTheSequence : ([1, 2, 3, 4] : Bytes).length < 4 + 1 ∧
    ([1, 2, 3, 4] : Bytes).length < 1 + 4 ∧ ([1, 2, 3, 4] : Bytes)[0]? = some 1 ∧ ([1, 2, 3, 4] : Bytes)[1]? = some 2 ∧
    ([1, 2, 3, 4] : Bytes)[2]? = some 3 ∧ ([1, 2, 3, 4] : Bytes)[3]? = some 4 := by decide
theorem witness_BigEndianRoundTrip :
    answer (.serU32 [0xAA] 5) (node 0x01 []) = some (.ok (.bytes [0xAA, 0, 0, 0, 5])) ∧
    (node 0x02 (closedFrame cfg 0x01 0x02 (be32 5 ++ []))).readAnswer = closedFrame cfg 0x01 0x02 (be32 5 ++ []) := by
  decide
theorem witness_TrailerMakesTheSumZero :
    answer (.chkAppend [0xFF]) (node 0x01 []) = some (.ok (.bytes [0xFF, 0x01])) := by decide
theorem witness_StreamingAccumulatorAgrees : (node 0x01 []).cfg.bufMax = none := rfl
theorem witness_SingleByteCorruptionIsDetected : ([0xBB] : Bytes).length = ([0xAA] : Bytes).length ∧
    (closedFrame cfg 0x01 0x02 [0xAA])[0]? = some 0x01 ∧ (closedFrame cfg 0x01 0x02 [0xAA])[5]? = some 0xAA ∧
    (0xAB#8) ≠ 0x01 ∧ (0 : Nat) ≠ 5 ∧
    ((0xFF#8).toNat + (0xAC#8).toNat) % 256 = ((0x01#8).toNat + (0xAA#8).toNat) % 256 ∧
    ([0, 0, 0, 0, 0, 0, 0] : Bytes).length = (closedFrame cfg 0x01 0x02 [0xAA]).length := by decide

/-- The capacity premises, each way, at the boundary: a frame of 8 bytes and BUF_MAX 8 or 7. -/
theorem witness_capacity : Within (node 0x01 []).cfg 8 ∧ Within (nodeMax 8 0x01 []).cfg 8 ∧
    ¬ Within (nodeMax 7 0x01 []).cfg 8 := by
  simp [Within, node, nodeMax, cfgMax, cfg, State.construct]

theorem witness_BuildDataAnswersItsFrame : Within (nodeMax 8 0x01 []).cfg (([0xAA, 0xBB] : Bytes).length + 6) ∧
    ¬ Within (nodeMax 7 0x01 []).cfg (([0xAA, 0xBB] : Bytes).length + 6) := by
  simp [Within, nodeMax, cfgMax, State.construct]
theorem witness_BuildPingAnswersTheSixByteFrame : Within (nodeMax 6 0x01 []).cfg 6 ∧
    ¬ Within (nodeMax 5 0x01 []).cfg 6 := by
  simp [Within, nodeMax, cfgMax, State.construct]
theorem witness_SerU32AppendsBigEndian : Within (nodeMax 5 0x01 []).cfg (([0xAA] : Bytes).length + 4) ∧
    ¬ Within (nodeMax 4 0x01 []).cfg (([0xAA] : Bytes).length + 4) := by
  simp [Within, nodeMax, cfgMax, State.construct]
theorem witness_SerU32sAppendsEachInOrder :
    Within (nodeMax 9 0x01 []).cfg (([0xAA] : Bytes).length + 4 * ([1, 2] : List U32).length) ∧
    ¬ Within (nodeMax 8 0x01 []).cfg (([0xAA] : Bytes).length + 4 * ([1, 2] : List U32).length) ∧
    ([1, 2] : List U32)[1]? = some 2 := by
  simp [Within, nodeMax, cfgMax, State.construct]
theorem witness_SerTextAppendsOneTerminator : Within (nodeMax 1 0x01 []).cfg (([] : Bytes).length + 1) ∧
    ¬ Within (nodeMax 0 0x01 []).cfg (([] : Bytes).length + 1) := by
  simp [Within, nodeMax, cfgMax, State.construct]
theorem witness_ChkAppendAppendsTheTrailer : Within (nodeMax 1 0x01 []).cfg (([] : Bytes).length + 1) ∧
    ¬ Within (nodeMax 0 0x01 []).cfg (([] : Bytes).length + 1) := by
  simp [Within, nodeMax, cfgMax, State.construct]
theorem witness_ChkVerifyTestsTheSum : Within (nodeMax 2 0x01 []).cfg ([0xFF, 0x01] : Bytes).length ∧
    sum8 [0xFF, 0x01] = 0 ∧ sum8 [0xFF, 0x02] ≠ 0 ∧ ¬ Within (nodeMax 1 0x01 []).cfg ([0xFF, 0x01] : Bytes).length := by
  refine ⟨?_, by decide, by decide, ?_⟩ <;> simp [Within, nodeMax, cfgMax, State.construct]

theorem witness_writeAnswer : (node 0x01 []).writeAnswer = .done ∧ (nodeMax 8 0x01 []).writeAnswer = .done ∧
    failing.writeAnswer = .failed ⟨7⟩ 3 := ⟨rfl, rfl, rfl⟩
theorem witness_SendDataWritesItsFrame : Within (nodeMax 8 0x01 []).cfg (([0xAA, 0xBB] : Bytes).length + 6) ∧
    (nodeMax 8 0x01 []).writeAnswer = .done ∧ Within failing.cfg (([0xAA, 0xBB] : Bytes).length + 6) ∧
    failing.writeAnswer = .failed ⟨7⟩ 3 ∧ ¬ Within (nodeMax 7 0x01 []).cfg (([0xAA, 0xBB] : Bytes).length + 6) := by
  refine ⟨?_, rfl, ?_, rfl, ?_⟩ <;> simp [Within, nodeMax, failing, cfgMax, cfg, State.construct]
theorem witness_SendPingWritesTheSixByteFrame : Within (nodeMax 6 0x01 []).cfg 6 ∧
    (nodeMax 6 0x01 []).writeAnswer = .done ∧ Within failing.cfg 6 ∧ failing.writeAnswer = .failed ⟨7⟩ 3 ∧
    ¬ Within (nodeMax 5 0x01 []).cfg 6 := by
  refine ⟨?_, rfl, ?_, rfl, ?_⟩ <;> simp [Within, nodeMax, failing, cfgMax, cfg, State.construct]
theorem witness_SendU32WritesATenByteFrame : Within (nodeMax 10 0x01 []).cfg 10 ∧
    (nodeMax 10 0x01 []).writeAnswer = .done ∧ Within failing.cfg 10 ∧ failing.writeAnswer = .failed ⟨7⟩ 3 ∧
    ¬ Within (nodeMax 9 0x01 []).cfg 10 ∧
    (node 0x02 (closedFrame cfg 0x01 0x02 (be32 5))).readAnswer = closedFrame cfg 0x01 0x02 (be32 5) := by
  refine ⟨?_, rfl, ?_, rfl, ?_, rfl⟩ <;> simp [Within, nodeMax, failing, cfgMax, cfg, State.construct]
theorem witness_SendU32sWritesEveryInteger : Within (nodeMax 6 0x01 []).cfg (4 * ([] : List U32).length + 6) ∧
    (nodeMax 6 0x01 []).writeAnswer = .done ∧ Within failing.cfg (4 * ([1] : List U32).length + 6) ∧
    failing.writeAnswer = .failed ⟨7⟩ 3 ∧ ¬ Within (nodeMax 9 0x01 []).cfg (4 * ([1] : List U32).length + 6) := by
  refine ⟨?_, rfl, ?_, rfl, ?_⟩ <;> simp [Within, nodeMax, failing, cfgMax, cfg, State.construct]
theorem witness_SendTextWritesATerminatedPayload : Within (nodeMax 7 0x01 []).cfg (([] : Bytes).length + 7) ∧
    (nodeMax 7 0x01 []).writeAnswer = .done ∧ Within failing.cfg (([] : Bytes).length + 7) ∧
    failing.writeAnswer = .failed ⟨7⟩ 3 ∧ ¬ Within (nodeMax 6 0x01 []).cfg (([] : Bytes).length + 7) := by
  refine ⟨?_, rfl, ?_, rfl, ?_⟩ <;> simp [Within, nodeMax, failing, cfgMax, cfg, State.construct]
theorem witness_FailedWriteIsPassedThrough : isSend (.sendPing 0x05) = true ∧ failing.writeAnswer = .failed ⟨7⟩ 3 :=
  ⟨rfl, rfl⟩

/-- Five, six, eight and nine bytes that sum to zero, and six that do not. -/
def zeros (n : Nat) : Bytes := List.replicate n 0
def nodeZeros (n : Nat) : State := node 0x05 (zeros n)

theorem witness_ReadRawTestsLengthThenSum : (nodeZeros 5).readAnswer.length < 6 ∧
    6 ≤ (node 0x05 [0, 0, 0, 0, 0, 1]).readAnswer.length ∧ sum8 (node 0x05 [0, 0, 0, 0, 0, 1]).readAnswer ≠ 0 ∧
    6 ≤ (nodeZeros 6).readAnswer.length ∧ sum8 (nodeZeros 6).readAnswer = 0 := by decide
theorem witness_AccumulateAppendsThenTestsTheNewBytes :
    Within (nodeMax 3 0x05 [0xFF, 0x01]).cfg (([0xAA] : Bytes).length + (nodeMax 3 0x05 [0xFF, 0x01]).readAnswer.length) ∧
    sum8 (nodeMax 3 0x05 [0xFF, 0x01]).readAnswer = 0 ∧ sum8 (nodeMax 3 0x05 [0xFF, 0x02]).readAnswer ≠ 0 ∧
    ¬ Within (nodeMax 2 0x05 [0xFF, 0x01]).cfg
      (([0xAA] : Bytes).length + (nodeMax 2 0x05 [0xFF, 0x01]).readAnswer.length) := by
  refine ⟨?_, by decide, by decide, ?_⟩ <;>
    simp [Within, nodeMax, cfgMax, State.construct, State.readAnswer, limit]
theorem witness_ReceiveDecodesOneFrame : sum8 (node 0x05 [0x01]).readAnswer ≠ 0 ∧ (node 0x05 []).readAnswer = [] ∧
    sum8 (nodeZeros 1).readAnswer = 0 ∧ 1 ≤ (nodeZeros 1).readAnswer.length ∧ (nodeZeros 5).readAnswer.length < 6 ∧
    sum8 (nodeZeros 6).readAnswer = 0 ∧ 6 ≤ (nodeZeros 6).readAnswer.length ∧ (nodeZeros 8).readAnswer.length < 9 ∧
    sum8 (nodeZeros 9).readAnswer = 0 ∧ 9 ≤ (nodeZeros 9).readAnswer.length := by decide
theorem witness_RdLastAnswersTheCache : (node 0x01 []).lastValid = false ∧
    ((node 0x01 []).cache Message.unwritten).lastValid = true := ⟨rfl, rfl⟩
theorem witness_RdLastSeesTheLastSuccessfulReceive :
    answer (.receive t0) (nodeZeros 9) =
      some (.ok (.message { src := 0, dst := 0, length := 9, msgid := 0, payload := [] })) ∧
    answer (.receive t0) (nodeZeros 8) = some (.err .decodeError none) := by decide
theorem witness_ReadCommandsCompared :
    answer (.receive t0) (nodeZeros 9) =
      some (.ok (.message { src := 0, dst := 0, length := 9, msgid := 0, payload := [] })) ∧
    6 ≤ (nodeZeros 8).readAnswer.length ∧ (nodeZeros 8).readAnswer.length ≤ 8 ∧ sum8 (nodeZeros 8).readAnswer = 0 ∧
    1 ≤ (node 0x05 [1]).readAnswer.length ∧ (node 0x05 [1]).readAnswer.length ≤ 5 ∧
    sum8 (node 0x05 [1]).readAnswer ≠ 0 ∧ (node 0x05 []).readAnswer = [] ∧ (nodeZeros 5).readAnswer.length < 6 := by
  decide
theorem witness_DecodeOfABuiltFrame :
    (node 0x02 (closedFrame cfg 0x01 0x02 [1, 2, 3, 4])).readAnswer = closedFrame cfg 0x01 0x02 [1, 2, 3, 4] ∧
    ([1, 2] : Bytes).length ≤ 2 ∧ 4 ≤ ([1, 2, 3, 4] : Bytes).length ∧
    ∃ m, answer (.receive t0) (node 0x02 (closedFrame cfg 0x01 0x02 [1, 2, 3, 4])) = some (.ok (.message m)) :=
  ⟨by decide, by decide, by decide,
    { src := 0x01, dst := 0x02, length := 10, msgid := 0x01020304, payload := [0xE6] }, by decide⟩
theorem witness_DecodeOfABuiltFrame_three : ∃ p0 p1 p2, [1, 2, 3] = [p0, p1, p2] ∧
    (node 0x02 (closedFrame cfg 0x01 0x02 [p0, p1, p2])).readAnswer = closedFrame cfg 0x01 0x02 [1, 2, 3] ∧
    (closedFrame cfg 0x01 0x02 [1, 2, 3]).length = 9 := ⟨1, 2, 3, by decide, by decide, by decide⟩
theorem witness_AccumulationKeepsTheSum :
    answer (.accumulate [0xAA] t0) (node 0x05 [0xFF, 0x01]) = some (.ok (.bytes [0xAA, 0xFF, 0x01])) := by decide

theorem witness_ErrorsWriteNoState : ∃ t, exec (.receive t0) (node 0x05 []) = .next t ∧
    t.responses = (node 0x05 []).responses ++ [.err .timeoutError none] := ⟨_, rfl, by decide⟩
theorem witness_ErrorsWriteNoState_accumulate : ∃ t, exec (.accumulate [0xAA] t0) (node 0x05 [0x01]) = .next t ∧
    t.responses = (node 0x05 [0x01]).responses ++ [.err (.checksumError 0x01) (some [0xAA, 0x01])] :=
  ⟨_, rfl, by decide⟩
theorem witness_OnlyASuccessfulReceiveWritesTheCache : ∃ t, exec (.receive t0) (nodeZeros 9) = .next t := ⟨_, rfl⟩
theorem witness_AddressAndConfigurationNeverChange : ∃ t, step (waiting 0xE) = .next t := ⟨_, rfl⟩
theorem witness_TransportAccessOfEachCommand : isSend .rdLast = false ∧ readTimeout .rdLast = none ∧
    isSend (.sendPing 0) = true ∧ readTimeout (.receive t0) = some t0 ∧
    ∃ t, exec (.receive t0) (nodeZeros 9) = .next t := ⟨rfl, rfl, rfl, rfl, _, rfl⟩
theorem witness_BusCarriesPartsOfFrames : isSend (.sendPing 5) = true ∧ ∃ t, exec (.sendPing 5) failing = .next t ∧
    busBytes t.calls = [0x01, 0x06, 0x01] := ⟨rfl, _, rfl, by decide⟩
theorem witness_BuildersArePure : isSend (.buildPing 0) = false ∧ readTimeout (.buildPing 0) = none ∧
    Instr.buildPing 0 ≠ .rdLast ∧ (node 0x05 []).addr = ((nodeZeros 9).cache Message.unwritten).addr ∧
    (node 0x05 []).cfg = ((nodeZeros 9).cache Message.unwritten).cfg := by decide
theorem witness_OnlyRdLastReadsTheCache : Instr.buildPing 0 ≠ .rdLast := by decide
theorem witness_UnwrittenCacheIsUnobservable : SameButUnwrittenCache (waiting 0xF)
    { waiting 0xF with last := { Message.unwritten with src := 1 } } ∧
    (∃ t, Sys2Proof.core.run 1 (waiting 0xF) = .next t) ∧
    Sys2Proof.core.run 1 (waiting 0x10) = .refused (.reservedCode 0x10) :=
  ⟨.inr ⟨rfl, _, rfl⟩, ⟨_, rfl⟩, rfl⟩
theorem witness_ReceiversIgnoreAddressAndMarkers : readTimeout (.readRaw t0) = some t0 := rfl
theorem witness_PseudoCommandExpansions : answer (.serU32 [] 5) (node 0x01 []) = some (.ok (.bytes [0, 0, 0, 5])) ∧
    answer (.serU32s [] [5]) (node 0x01 []) = some (.ok (.bytes [0, 0, 0, 5])) ∧
    answer (.serText [5]) (node 0x01 []) = some (.ok (.bytes [5, 0])) ∧
    answer (.buildData 0x02 [0x55]) (node 0x01 []) =
      some (.ok (.bytes [0x01, 0x07, 0x01, 0x02, 0x02, 0x55, 0x9E])) ∧
    6 ≤ (nodeZeros 6).readAnswer.length := by decide
theorem witness_NothingLongerThanCapacity : ∃ t, exec (.buildPing 5) (nodeMax 6 0x01 []) = .next t ∧
    t.responses = (nodeMax 6 0x01 []).responses ++ [.ok (.bytes [0x01, 0x06, 0x01, 0x05, 0x02, 0xF1])] :=
  ⟨_, rfl, by decide⟩
theorem witness_NothingLongerThanCapacity_error :
    ∃ t, exec (.accumulate [0xAA] t0) (nodeMax 2 0x01 [0x01]) = .next t ∧
      t.responses = (nodeMax 2 0x01 [0x01]).responses ++ [.err (.checksumError 0x01) (some [0xAA, 0x01])] :=
  ⟨_, rfl, by decide⟩
theorem witness_NothingLongerThanCapacity_refused :
    ∃ t, exec (.accumulate [0xAA, 0xBB] t0) (nodeMax 1 0x01 []) = .next t ∧
      t.responses = (nodeMax 1 0x01 []).responses ++ [.refused (some [0xAA, 0xBB])] := ⟨_, rfl, by decide⟩
theorem witness_NothingLongerThanCapacity_message :
    ∃ t u, exec (.receive t0) (nodeMax 10 0x01 (zeros 10)) = .next t ∧ t.responses =
        (nodeMax 10 0x01 (zeros 10)).responses ++ [.ok (.message ⟨0, 0, 10, 0, [0]⟩)] ∧
      exec .rdLast t = .next u ∧ u.responses = t.responses ++ [.ok (.message ⟨0, 0, 10, 0, [0]⟩)] :=
  ⟨_, _, rfl, by decide, rfl, by decide⟩
theorem witness_NothingLongerThanCapacity_frame : ∃ t, exec (.sendPing 5) (nodeMax 6 0x01 []) = .next t ∧
    t.responses = (nodeMax 6 0x01 []).responses ++ [.ok .nothing] ∧
    [0x01, 0x06, 0x01, 0x05, 0x02, 0xF1] ∈ writtenFrames t.calls := ⟨_, rfl, by decide, by decide⟩
theorem witness_LengthByteIsTruthfulUpTo249 : (node 0x01 []).cfg.bufMax = none := rfl

/-- A node that has sent a frame and then received nine zero bytes. -/
def used : State :=
  { node 0x01 [] with
    last := { src := 0, dst := 0, length := 9, msgid := 0, payload := [] }
    lastValid := true
    calls := [.write (closedFrame cfg 0x01 0x02 [0xAA]) .done, .read t0 (zeros 9)]
    responses := [.ok .nothing, .err (.checksumError 0x01) none]
    pending := [full 0xE] }

theorem witness_invariants_and_step : ∃ t, step used = .next t := ⟨_, rfl⟩
theorem witness_EveryWriteIsAWellFormedFrame : WritesAreFrames used := by
  intro f hf
  have : f = closedFrame cfg 0x01 0x02 [0xAA] := by simpa [used, writtenFrames] using hf
  subst this
  exact ⟨0x02, by decide, by decide, by decide, by decide, by decide, by decide, by decide⟩
theorem witness_ValidCacheHoldsAReadMessage : CacheIsAReadMessage used :=
  fun _ => ⟨zeros 9, by decide, by decide, by decide, by decide, by decide, by decide, rfl, by decide⟩
theorem witness_ChecksumErrorsStayNonzero : ChecksumErrorsCarryNonzero used := by
  intro e b h
  have : e = 0x01 := by simp [used] at h; exact h.1
  subst this; decide
theorem witness_ReadsStayWithinCapacity : ReadsWithinCapacity used := by
  simp [ReadsWithinCapacity, Within, used, node, cfg, State.construct]
theorem witness_EveryPendingCommandIsAnswered :
    ∀ r ∈ ((waiting 0xF).present (full 0x8)).pending, r.code.toNat ≤ 0xF := by decide

end Sys2Proof.Tests
end

/-! SUPPORT. Proofs of the statements about the byte-sequence primitives and the checksum arithmetic of 00_scope: the
sum and its complement (R9 to R11), the big-endian forms (R12), the bounded reads (R13). -/

namespace Sys2Proof.Machine

/-! ### The sum and its complement -/

theorem sum8_toNat (b : Bytes) : (sum8 b).toNat = (b.map BitVec.toNat).sum % 256 :=
  BitVec.toNat_ofNat _ _

/-- The sum does not depend on the order of the bytes (R9). -/
theorem sum8_perm {a b : Bytes} (h : a.Perm b) : sum8 a = sum8 b := by
  rw [sum8, sum8, (h.map BitVec.toNat).sum_eq]

/-- The byte-serial accumulator of R9, from any starting value. -/
theorem foldl_add_eq_add_sum8 (acc : Byte) (b : Bytes) :
    b.foldl (fun acc x => acc + x) acc = acc + sum8 b := by
  induction b generalizing acc with
  | nil => simp
  | cons x b ih => rw [List.foldl_cons, ih, sum8_cons, BitVec.add_assoc]

theorem neg8_toNat (s : Byte) : (neg8 s).toNat = (256 - s.toNat) % 256 := by
  rw [neg8_eq_neg, BitVec.toNat_neg]

theorem neg8_toNat_eq_complement_succ (s : Byte) : (neg8 s).toNat = ((s ^^^ 0xFF#8).toNat + 1) % 256 :=
  BitVec.toNat_add _ _

/-! ### The big-endian forms -/

/-- `BE32` as division by powers of two (R12). -/
theorem be32_eq_ofNat_div (v : U32) :
    be32 v = [BitVec.ofNat 8 (v.toNat / 2 ^ 24), BitVec.ofNat 8 (v.toNat / 2 ^ 16),
      BitVec.ofNat 8 (v.toNat / 2 ^ 8), BitVec.ofNat 8 v.toNat] := by
  simp [be32, BitVec.extractLsb', Nat.shiftRight_eq_div_pow]

/-- The four weighted bytes fit 32 bits, so `UnBE32` does not wrap (R12). -/
theorem unBe32_toNat (b0 b1 b2 b3 : Byte) :
    (unBe32 b0 b1 b2 b3).toNat = b0.toNat * 2 ^ 24 + b1.toNat * 2 ^ 16 + b2.toNat * 2 ^ 8 + b3.toNat := by
  rw [unBe32, BitVec.toNat_ofNat]
  omega

/-- Joining the four bytes of a split integer gives the integer back. -/
theorem unBe32_ofNat_div (v : U32) :
    unBe32 (BitVec.ofNat 8 (v.toNat / 2 ^ 24)) (BitVec.ofNat 8 (v.toNat / 2 ^ 16))
      (BitVec.ofNat 8 (v.toNat / 2 ^ 8)) (BitVec.ofNat 8 v.toNat) = v := by
  apply BitVec.eq_of_toNat_eq
  simp only [unBe32_toNat, BitVec.toNat_ofNat]
  omega

theorem ofNat_eq_of_mod_eq {n : Nat} {x : Byte} (h : n % 2 ^ 8 = x.toNat) : BitVec.ofNat 8 n = x :=
  BitVec.eq_of_toNat_eq h

theorem be32_unBe32 (b0 b1 b2 b3 : Byte) : be32 (unBe32 b0 b1 b2 b3) = [b0, b1, b2, b3] := by
  rw [be32_eq_ofNat_div, unBe32_toNat]
  simp only [List.cons.injEq, and_true]
  exact ⟨ofNat_eq_of_mod_eq (by omega), ofNat_eq_of_mod_eq (by omega), ofNat_eq_of_mod_eq (by omega),
    ofNat_eq_of_mod_eq (by omega)⟩

/-! ### The bounded reads -/

theorem drop_eq_cons_of_getElem? {b : Bytes} {off : Nat} {x : Byte} (h : b[off]? = some x) :
    b.drop off = x :: b.drop (off + 1) := by
  obtain ⟨hlt, rfl⟩ := List.getElem?_eq_some_iff.1 h
  exact List.drop_eq_getElem_cons hlt

theorem memRead1_of_getElem? {b : Bytes} {off : Nat} {x : Byte} (h : b[off]? = some x) :
    memRead1 b off = .ok x := by
  rw [memRead1, drop_eq_cons_of_getElem? h]

theorem memRead4_of_getElem? {b : Bytes} {off : Nat} {x0 x1 x2 x3 : Byte} (h0 : b[off]? = some x0)
    (h1 : b[off + 1]? = some x1) (h2 : b[off + 2]? = some x2) (h3 : b[off + 3]? = some x3) :
    memRead4 b off = .ok (unBe32 x0 x1 x2 x3) := by
  rw [memRead4, drop_eq_cons_of_getElem? h0, drop_eq_cons_of_getElem? h1, drop_eq_cons_of_getElem? h2,
    drop_eq_cons_of_getElem? h3]

theorem memRead1_of_length_lt {b : Bytes} {off : Nat} (h : b.length < off + 1) :
    memRead1 b off = .error .decodeError := by
  rw [memRead1, List.drop_eq_nil_of_le (Nat.le_of_lt_succ h)]

/-- Four bytes from the offset would make the sequence at least `off + 4` long (R13, decision D7). -/
theorem memRead4_of_length_lt {b : Bytes} {off : Nat} (h : b.length < off + 4) :
    memRead4 b off = .error .decodeError := by
  unfold memRead4
  split
  next heq =>
    have hlen := congrArg List.length heq
    simp only [List.length_drop, List.length_cons] at hlen
    omega
  next => rfl

/-! ### The statements -/

/-- Settles O7: the accumulator adds to its start the sum of the bytes, and the sum is one of naturals, so order does
not matter. -/
theorem byteSumIsModulo256 : Obligations.ByteSumIsModulo256 := by
  refine ⟨sum8_toNat, sum8_nil, fun a b => ?_, fun a b hperm => ?_⟩
  · rw [sum8_append, BitVec.toNat_add]
  · rw [foldl_add_eq_add_sum8, sum8_perm hperm]
    exact BitVec.zero_add _

/-- Settles O9: both laws are arithmetic of base-256 digits. -/
theorem bigEndianFormIsABijection : Obligations.BigEndianFormIsABijection :=
  ⟨be32_eq_ofNat_div, unBe32_toNat, fun v => ⟨_, _, _, _, be32_eq_ofNat_div v, unBe32_ofNat_div v⟩, be32_unBe32⟩

/-- Settles O10: what is left of the sequence from the offset decides the read. -/
theorem memReadNeverLeavesTheSequence : Obligations.MemReadNeverLeavesTheSequence :=
  fun _ _ => ⟨memRead1_of_length_lt, memRead4_of_length_lt, fun _ => memRead1_of_getElem?,
    fun _ _ _ _ => memRead4_of_getElem?⟩

/-- Settles O8: `Neg8` is the negation of bytes. -/
theorem complementIsTheNegative : Obligations.ComplementIsTheNegative := by
  refine ⟨fun s => ⟨neg8_toNat s, neg8_toNat_eq_complement_succ s, ?_⟩, neg8_eq_neg 0, fun _ => rfl⟩
  rw [neg8_toNat]
  omega

end Sys2Proof.Machine

/-! SUPPORT. Proofs of the statements about the state (10_state): what a command may write, what it may look at, how
often it touches the transport, and that an unwritten cache cannot be observed. -/

namespace Sys2Proof.Machine

open Sys2Proof.Safety

/-! ### The step, one equation per case -/

theorem step_of_pending_nil {s : State} (h : s.pending = []) : step s = .next s := by
  simp only [step, State.fetch, h]

theorem step_of_decode_ok {s : State} {r : Request} {rest : List Request} {i : Instr} (h : s.pending = r :: rest)
    (hd : decode r = .ok i) : step s = exec i { s with pending := rest } := by
  simp only [step, State.fetch, h, hd]

theorem step_of_decode_error {s : State} {r : Request} {rest : List Request} {c : Byte} (h : s.pending = r :: rest)
    (hd : decode r = .error (.reservedCode c)) : step s = .refused (.reservedCode c) := by
  simp only [step, State.fetch, h, hd]

/-! ### What a command writes -/

/-- A send is one write and a response, or a refusal and nothing else (43_send R125). -/
theorem State.send_eq_respond (s : State) (f : Bytes) :
    (∃ r, s.send f = (s.afterWrite f).respond r) ∨ s.send f = s.respond (.refused none) := by
  rcases s.send_cases f with ⟨-, -, e⟩ | ⟨-, x, n, -, e⟩ | ⟨-, e⟩
  · exact .inl ⟨_, e⟩
  · exact .inl ⟨_, e⟩
  · exact .inr e

/-- A command keeps the cache and is no RECEIVE that answers a Message, or it is a RECEIVE that leaves the Message of
what it read there (R23). -/
theorem exec_cache_cases {i : Instr} {s t : State} (h : exec i s = .next t) :
    (t.last = s.last ∧ t.lastValid = s.lastValid ∧
      ∀ d m, i = .receive d → t.responses ≠ s.responses ++ [.ok (.message m)]) ∨
    ∃ d m, i = .receive d ∧ sum8 s.readAnswer = 0 ∧ IsMessageOf s.readAnswer m ∧
      t = ((s.afterRead d).cache m).respond (.ok (.message m)) := by
  rcases exec_cases h with ⟨-, hr, r, rfl, -⟩ | ⟨-, hr, dst, p, rfl⟩ |
    ⟨-, d, -, ⟨r, rfl, -, hne, -⟩ | ⟨hi, m, h0, hm, ht⟩⟩
  · exact .inl ⟨rfl, rfl, by rintro d m rfl; cases hr⟩
  · refine .inl ⟨?_, ?_, by rintro d m rfl; cases hr⟩ <;>
      rcases s.send_eq_respond (dataFrame s dst p) with ⟨r, e⟩ | e <;> simp [e]
  · exact .inl ⟨rfl, rfl, fun _ m _ hresp => hne m (by simpa using hresp)⟩
  · exact .inr ⟨d, m, hi, h0, hm, ht⟩

/-- No command writes the address or the configuration (R21). -/
theorem exec_addr_cfg {i : Instr} {s t : State} (h : exec i s = .next t) : t.addr = s.addr ∧ t.cfg = s.cfg := by
  rcases exec_cases h with ⟨-, -, r, rfl, -⟩ | ⟨-, -, dst, p, rfl⟩ |
    ⟨-, d, -, ⟨r, rfl, -⟩ | ⟨-, m, -, -, rfl⟩⟩
  · exact ⟨rfl, rfl⟩
  · rcases s.send_eq_respond (dataFrame s dst p) with ⟨r, e⟩ | e <;> simp [e]
  · exact ⟨rfl, rfl⟩
  · exact ⟨rfl, rfl⟩

/-- Once valid, the cache stays valid (R24). -/
theorem exec_lastValid {i : Instr} {s t : State} (h : exec i s = .next t) (hv : s.lastValid = true) :
    t.lastValid = true := by
  rcases exec_cache_cases h with ⟨-, hkeep, -⟩ | ⟨d, m, -, -, -, rfl⟩
  · rw [hkeep, hv]
  · rfl

/-! ### Access to the transport -/

theorem exec_calls_quiet {i : Instr} {s t : State} (hs : isSend i = false) (hr : readTimeout i = none)
    (h : exec i s = .next t) :
    t.calls = s.calls ∧ t.rxAnswers = s.rxAnswers ∧ t.txAnswers = s.txAnswers := by
  obtain ⟨r, rfl, -⟩ := exec_quiet hs hr h
  exact ⟨rfl, rfl, rfl⟩

theorem exec_calls_send {i : Instr} {s t : State} (hs : isSend i = true) (h : exec i s = .next t) :
    t.rxAnswers = s.rxAnswers ∧
      ((∃ f, t.calls = s.calls ++ [.write f s.writeAnswer] ∧ t.txAnswers = s.txAnswers.tail) ∨
        (t.calls = s.calls ∧ t.txAnswers = s.txAnswers ∧ t.responses = s.responses ++ [.refused none])) := by
  obtain ⟨dst, p, rfl⟩ := exec_send hs h
  rcases s.send_eq_respond (dataFrame s dst p) with ⟨r, e⟩ | e <;> rw [e]
  · exact ⟨rfl, .inl ⟨_, rfl, rfl⟩⟩
  · exact ⟨rfl, .inr ⟨rfl, rfl, rfl⟩⟩

theorem exec_calls_read {i : Instr} {s t : State} {d : Duration} (hr : readTimeout i = some d)
    (h : exec i s = .next t) :
    t.calls = s.calls ++ [.read d s.readAnswer] ∧ t.rxAnswers = s.rxAnswers.tail ∧ t.txAnswers = s.txAnswers := by
  rcases exec_read hr h with ⟨r, rfl, -⟩ | ⟨-, m, -, -, rfl⟩ <;> exact ⟨rfl, rfl, rfl⟩

/-- The recorded history is only ever added to (R29). -/
theorem exec_calls_extended {i : Instr} {s t : State} (h : exec i s = .next t) : s.calls <+: t.calls := by
  cases hr : readTimeout i with
  | some d => exact ⟨_, (exec_calls_read hr h).1.symm⟩
  | none =>
    cases hs : isSend i with
    | false => rw [(exec_calls_quiet hs hr h).1]
    | true =>
      obtain ⟨-, ⟨f, e, -⟩ | ⟨e, -⟩⟩ := exec_calls_send hs h
      · exact ⟨_, e.symm⟩
      · rw [e]

/-! ### The valid cache -/

theorem readAnswers_subset {a b : List Call} (h : a <+: b) : readAnswers a ⊆ readAnswers b :=
  (h.filterMap _).subset

theorem mem_readAnswers_afterRead (s : State) (d : Duration) :
    s.readAnswer ∈ readAnswers (s.afterRead d).calls := by
  simp [readAnswers]

/-- A kept cache keeps its read in the history; a written one is the Message of the read just recorded. -/
theorem exec_keeps_cacheIsAReadMessage {i : Instr} {s t : State} (hinv : CacheIsAReadMessage s)
    (h : exec i s = .next t) : CacheIsAReadMessage t := by
  rcases exec_cache_cases h with ⟨hlast, hvalid, -⟩ | ⟨d, m, -, h0, hm, rfl⟩
  · intro hv
    obtain ⟨r, hr, h0, hm⟩ := hinv (hvalid ▸ hv)
    exact ⟨r, readAnswers_subset (exec_calls_extended h) hr, h0, hlast ▸ hm⟩
  · exact fun _ => ⟨s.readAnswer, mem_readAnswers_afterRead s d, h0, hm⟩

/-! ### What a command looks at

For each class of commands, the response as a function of what the class reads of the state. -/

theorem State.deliver_eq_respond (x : Except Error Result) : ∃ r, ∀ s : State, s.deliver x = s.respond r := by
  cases x with
  | ok r => exact ⟨.ok r, fun _ => rfl⟩
  | error e => exact ⟨.err e none, fun _ => rfl⟩

theorem State.answerBytes_eq_respond (c : Config) (b : Bytes) :
    ∃ r, ∀ s : State, s.cfg = c → s.answerBytes b = s.respond r := by
  cases hf : fits c b.length
  · exact ⟨.refused none, by rintro s rfl; simp [State.answerBytes, hf]⟩
  · exact ⟨.ok (.bytes b), by rintro s rfl; simp [State.answerBytes, hf]⟩

/-- BUILD_DATA and BUILD_PING look at the address and the configuration alone (R32). -/
theorem answerBytes_dataFrame_eq_respond (a : Byte) (c : Config) (dst : Byte) (p : Bytes) :
    ∃ r, ∀ s : State, s.addr = a → s.cfg = c → s.answerBytes (dataFrame s dst p) = s.respond r := by
  obtain ⟨r, hr⟩ := State.answerBytes_eq_respond c (closedFrame c a dst p)
  refine ⟨r, ?_⟩
  rintro s rfl rfl
  rw [← closedFrame_eq_dataFrame]
  exact hr s rfl

/-- A building, serializing or checksum command looks at the address and the configuration alone (R32). -/
theorem exec_builder {i : Instr} (hs : isSend i = false) (hr : readTimeout i = none) (hi : i ≠ .rdLast) (a : Byte)
    (c : Config) : ∃ r, ∀ s : State, s.addr = a → s.cfg = c → exec i s = .next (s.respond r) := by
  cases i <;> simp only [isSend, readTimeout, Bool.true_eq_false, reduceCtorEq] at hs hr
  case buildData dst p =>
    obtain ⟨r, h⟩ := answerBytes_dataFrame_eq_respond a c dst p
    exact ⟨r, fun s ha hc => congrArg Host.Outcome.next (h s ha hc)⟩
  case buildPing dst =>
    obtain ⟨r, h⟩ := answerBytes_dataFrame_eq_respond a c dst []
    exact ⟨r, fun s ha hc => congrArg Host.Outcome.next (h s ha hc)⟩
  case chkVerify buf =>
    obtain ⟨r, h⟩ := State.deliver_eq_respond ((checksumTest buf).map fun _ => .nothing)
    cases hf : fits c buf.length
    · exact ⟨.refused none, by rintro s - rfl; simp [exec, execChkVerify, hf]⟩
    · exact ⟨r, by rintro s - rfl; simp [exec, execChkVerify, hf, h]⟩
  case rdLast => exact absurd rfl hi
  all_goals
    obtain ⟨r, h⟩ := State.answerBytes_eq_respond c _
    exact ⟨r, fun s _ hc => congrArg Host.Outcome.next (h s hc)⟩

/-- Which frame a send hands over is fixed by its operands, up to the address and the markers. -/
theorem exec_eq_send {i : Instr} (hs : isSend i = true) :
    ∃ dst p, ∀ s, exec i s = .next (s.send (dataFrame s dst p)) := by
  cases i <;> simp only [isSend, Bool.false_eq_true] at hs
  case sendPing dst => exact ⟨dst, [], fun _ => rfl⟩
  all_goals exact ⟨_, _, fun _ => rfl⟩

/-- A receive command looks at the configuration and at what the transport answers, and at nothing else. -/
theorem exec_receiver {i : Instr} {d : Duration} (hr : readTimeout i = some d) (c : Config) (a : Bytes) :
    (∃ r, ∀ s : State, s.cfg = c → s.readAnswer = a → exec i s = .next ((s.afterRead d).respond r)) ∨
      ∃ m r, ∀ s : State, s.cfg = c → s.readAnswer = a →
        exec i s = .next (((s.afterRead d).cache m).respond r) := by
  cases i <;> simp only [readTimeout, Option.some.injEq, reduceCtorEq] at hr <;> subst hr
  case readRaw =>
    obtain ⟨r, h⟩ := State.deliver_eq_respond ((rawTest a).map fun _ => .bytes a)
    exact .inl ⟨r, by rintro s - rfl; exact congrArg Host.Outcome.next (h _)⟩
  case accumulate buf d =>
    refine .inl ?_
    cases hf : fits c (buf.length + a.length)
    · exact ⟨.refused (some buf), by rintro s rfl rfl; simp [exec, execAccumulate, hf]⟩
    cases hc : checksumTest a with
    | ok _ => exact ⟨.ok (.bytes (buf ++ a)), by rintro s rfl rfl; simp [exec, execAccumulate, hf, hc]⟩
    | error e => exact ⟨.err e (some (buf ++ a)), by rintro s rfl rfl; simp [exec, execAccumulate, hf, hc]⟩
  case receive d =>
    cases ht : receiveTest a with
    | ok m => exact .inr ⟨m, .ok (.message m), by rintro s - rfl; simp only [exec, execReceive, ht]⟩
    | error e => exact .inl ⟨.err e none, by rintro s - rfl; simp only [exec, execReceive, ht]; rfl⟩

/-! ### The cache as an input -/

/-- The state with another cache. -/
def State.withCache (s : State) (m : Message) (v : Bool) : State := { s with last := m, lastValid := v }

theorem State.withCache_self {s : State} {v : Bool} (h : s.lastValid = v) : s.withCache s.last v = s := by
  subst h; rfl

theorem State.respond_withCache (s : State) (m : Message) (v : Bool) (r : Response) :
    (s.withCache m v).respond r = (s.respond r).withCache m v := rfl

theorem State.send_withCache (s : State) (m : Message) (v : Bool) (f : Bytes) :
    (s.withCache m v).send f = (s.send f).withCache m v := by
  have answer : (s.withCache m v).writeAnswer = s.writeAnswer := rfl
  unfold State.send
  rw [answer, apply_ite (State.withCache · m v)]
  cases s.writeAnswer <;> rfl

/-- A command other than RD_LAST leaves whatever cache it finds, or overwrites whatever it finds (R23, R30). -/
theorem exec_withCache {i : Instr} (hi : i ≠ .rdLast) (s : State) :
    (∃ t : State, ∀ m v, exec i (s.withCache m v) = .next (t.withCache m v)) ∨
      ∃ t, ∀ m v, exec i (s.withCache m v) = .next t := by
  cases hr : readTimeout i with
  | some d =>
    rcases exec_receiver hr s.cfg s.readAnswer with ⟨r, h⟩ | ⟨m, r, h⟩
    · exact .inl ⟨(s.afterRead d).respond r, fun m v => h (s.withCache m v) rfl rfl⟩
    · exact .inr ⟨((s.afterRead d).cache m).respond r, fun m' v => h (s.withCache m' v) rfl rfl⟩
  | none =>
    refine .inl ?_
    cases hs : isSend i with
    | false =>
      obtain ⟨r, h⟩ := exec_builder hs hr hi s.addr s.cfg
      exact ⟨s.respond r, fun m v => h (s.withCache m v) rfl rfl⟩
    | true =>
      obtain ⟨dst, p, h⟩ := exec_eq_send hs
      exact ⟨s.send (dataFrame s dst p), fun m v => (h _).trans (congrArg _ (s.send_withCache m v _))⟩

/-- RD_LAST answers *none* while nothing has been received (44_receive R133). -/
theorem exec_rdLast_unwritten {s : State} (h : s.lastValid = false) :
    exec .rdLast s = .next (s.respond (.ok .noMessage)) := by
  simp only [exec, execRdLast, h]

/-! ### The unwritten cache -/

theorem sameButUnwrittenCache_iff {s u : State} :
    SameButUnwrittenCache s u ↔ u = s ∨ (s.lastValid = false ∧ ∃ m, u = s.withCache m false) := by
  refine or_congr_right (and_congr_right fun hv => exists_congr fun m => ?_)
  rw [State.withCache, ← hv]

theorem responses_calls_of_sameButUnwrittenCache {s u : State} (h : SameButUnwrittenCache s u) :
    u.responses = s.responses ∧ u.calls = s.calls := by
  obtain rfl | ⟨-, m, rfl⟩ := h <;> exact ⟨rfl, rfl⟩

/-- Two states that differ in an unwritten cache go on to two such states, by every command. -/
theorem exec_keeps_sameButUnwrittenCache (i : Instr) {s u : State} (h : SameButUnwrittenCache s u) :
    ∃ t v, exec i s = .next t ∧ exec i u = .next v ∧ SameButUnwrittenCache t v := by
  obtain rfl | ⟨hv, m, rfl⟩ := sameButUnwrittenCache_iff.1 h
  · obtain ⟨t, ht⟩ := exec_next i u
    exact ⟨t, t, ht, ht, .inl rfl⟩
  by_cases hi : i = .rdLast
  · subst hi
    exact ⟨_, _, exec_rdLast_unwritten hv, exec_rdLast_unwritten rfl,
      sameButUnwrittenCache_iff.2 (.inr ⟨hv, m, State.respond_withCache s m false _⟩)⟩
  rcases exec_withCache hi s with ⟨t, ht⟩ | ⟨t, ht⟩
  · have hst := ht s.last false
    rw [State.withCache_self hv] at hst
    exact ⟨_, _, hst, ht m false, .inr ⟨rfl, m, rfl⟩⟩
  · have hst := ht s.last false
    rw [State.withCache_self hv] at hst
    exact ⟨t, t, hst, ht m false, .inl rfl⟩

/-- Two states that differ in an unwritten cache step to two such states, or stop at the same refusal. -/
theorem step_keeps_sameButUnwrittenCache {s u : State} (h : SameButUnwrittenCache s u) :
    (∃ t v, step s = .next t ∧ step u = .next v ∧ SameButUnwrittenCache t v) ∨
      ∃ ρ, step s = .refused ρ ∧ step u = .refused ρ := by
  have hpending : u.pending = s.pending := by obtain rfl | ⟨-, m, rfl⟩ := h <;> rfl
  cases hs : s.pending with
  | nil => exact .inl ⟨s, u, step_of_pending_nil hs, step_of_pending_nil (hpending.trans hs), h⟩
  | cons r rest =>
    have hu : u.pending = r :: rest := hpending.trans hs
    cases hd : decode r with
    | error e => exact .inr ⟨_, step_of_decode_error hs hd, step_of_decode_error hu hd⟩
    | ok i =>
      have hrest : SameButUnwrittenCache { s with pending := rest } { u with pending := rest } := by
        obtain rfl | ⟨hv, m, rfl⟩ := h
        · exact .inl rfl
        · exact .inr ⟨hv, m, rfl⟩
      rw [step_of_decode_ok hs hd, step_of_decode_ok hu hd]
      exact .inl (exec_keeps_sameButUnwrittenCache i hrest)

theorem run_keeps_sameButUnwrittenCache (k : Nat) {s u : State} (h : SameButUnwrittenCache s u) :
    (∃ t v, Sys2Proof.core.run k s = .next t ∧ Sys2Proof.core.run k u = .next v ∧ SameButUnwrittenCache t v) ∨
      ∃ ρ, Sys2Proof.core.run k s = .refused ρ ∧ Sys2Proof.core.run k u = .refused ρ := by
  induction k generalizing s u with
  | zero => exact .inl ⟨s, u, rfl, rfl, h⟩
  | succ k ih =>
    rcases step_keeps_sameButUnwrittenCache h with ⟨s', u', hs, hu, h'⟩ | ⟨ρ, hs, hu⟩
    · rw [run_succ_next hs, run_succ_next hu]
      exact ih h'
    · exact .inr ⟨ρ, run_succ_refused hs, run_succ_refused hu⟩

/-! ### Construction -/

/-- The configuration constants take no pair of equal markers (R6): the gap above START is 1 to 255. -/
theorem config_default_markers_differ : Config.default.start ≠ Config.default.start2 := by
  have hgap := Config.markerGap.isLt
  simp only [Config.default]
  bv_omega

/-! ### The statements -/

/-- Settles O45: by induction on the run, each step keeps the two states equal up to an unwritten cache. -/
theorem unwrittenCacheIsUnobservable : Obligations.UnwrittenCacheIsUnobservable := by
  intro k s u h
  rcases run_keeps_sameButUnwrittenCache k h with ⟨t, v, hs, hu, h'⟩ | ⟨ρ, hs, hu⟩ <;> rw [hs, hu]
  · refine ⟨?_, fun _ hρ => (nomatch hρ)⟩
    rintro _ ⟨⟩
    exact ⟨v, rfl, h', responses_calls_of_sameButUnwrittenCache h'⟩
  · exact ⟨fun _ ht => (nomatch ht), fun _ => id⟩

/-- Settles O51: a step is idle or performs a command, which keeps the invariant. -/
theorem validCacheHoldsAReadMessage : Obligations.ValidCacheHoldsAReadMessage := by
  intro s t hinv h
  rcases step_cases h with ⟨-, rfl⟩ | ⟨r, rest, i, -, -, hexec⟩
  · exact hinv
  · have hinv' : CacheIsAReadMessage { s with pending := rest } := hinv
    exact exec_keeps_cacheIsAReadMessage hinv' hexec

/-- Settles O39: the two cases of a command's effect on the cache. -/
theorem onlyASuccessfulReceiveWritesTheCache : Obligations.OnlyASuccessfulReceiveWritesTheCache := by
  intro i s t h
  rcases exec_cache_cases h with hkeep | ⟨d, m, hi, -, -, rfl⟩
  · exact .inl hkeep
  · exact .inr ⟨d, m, hi, rfl, rfl, rfl⟩

/-- Settles O40: an idle step changes nothing, and no command writes these fields or clears the cache. -/
theorem addressAndConfigurationNeverChange : Obligations.AddressAndConfigurationNeverChange := by
  intro s t h
  rcases step_cases h with ⟨-, rfl⟩ | ⟨r, rest, i, -, -, hexec⟩
  · exact ⟨rfl, rfl, id⟩
  · obtain ⟨haddr, hcfg⟩ := exec_addr_cfg hexec
    exact ⟨haddr, hcfg, fun hv => exec_lastValid hexec hv⟩

/-- Settles O41: one law of access per class of commands. -/
theorem transportAccessOfEachCommand : Obligations.TransportAccessOfEachCommand :=
  fun _ _ _ h => ⟨fun hs hr => exec_calls_quiet hs hr h, fun hs => exec_calls_send hs h,
    fun _ hr => exec_calls_read hr h⟩

/-- Settles O43: the response is one for all states with the given address and configuration. -/
theorem buildersArePure : Obligations.BuildersArePure := by
  intro i s u hs hr hi haddr hcfg
  obtain ⟨r, h⟩ := exec_builder hs hr hi u.addr u.cfg
  exact ⟨r, h s haddr hcfg, h u rfl rfl⟩

/-- Settles O44: whatever cache stands in the state is left there or overwritten, and the rest is the same. -/
theorem onlyRdLastReadsTheCache : Obligations.OnlyRdLastReadsTheCache := by
  intro i s m v hi
  rcases exec_withCache hi s with ⟨t, ht⟩ | ⟨t, ht⟩
  · exact ⟨_, _, ht s.last s.lastValid, ht m v, rfl, rfl, rfl, rfl⟩
  · exact ⟨_, _, ht s.last s.lastValid, ht m v, rfl, rfl, rfl, rfl⟩

/-- Settles O2: reset is defined as this construction, and nothing has been received there. -/
theorem resetIsConstruction : Obligations.ResetIsConstruction :=
  ⟨rfl, config_default_markers_differ, rfl, answer_of_next (exec_rdLast_unwritten (s := State.reset) rfl)⟩

/-- Settles O3: the step's equations for a decoded head and for an empty port. -/
theorem stepRunsTheDecodedCommand : Obligations.StepRunsTheDecodedCommand :=
  ⟨fun _ _ _ _ => step_of_decode_ok, fun _ => step_of_pending_nil⟩

end Sys2Proof.Machine

/-! SUPPORT. Proofs of the statements about byte sequences and the transport (20_memory): capacity (R57), the cache as
RD_LAST shows it (R49), and what reaches the bus (R54). -/

namespace Sys2Proof.Machine

open Sys2Proof.Safety

/-! ### The recorded history, one call at a time -/

@[simp] theorem readAnswers_append (a b : List Call) : readAnswers (a ++ b) = readAnswers a ++ readAnswers b :=
  List.filterMap_append

@[simp] theorem readAnswers_read (d : Duration) (r : Bytes) : readAnswers [.read d r] = [r] := rfl

@[simp] theorem readAnswers_write (f : Bytes) (a : WriteAnswer) : readAnswers [.write f a] = [] := rfl

@[simp] theorem writtenFrames_append (a b : List Call) :
    writtenFrames (a ++ b) = writtenFrames a ++ writtenFrames b :=
  List.filterMap_append

@[simp] theorem writtenFrames_read (d : Duration) (r : Bytes) : writtenFrames [.read d r] = [] := rfl

@[simp] theorem writtenFrames_write (f : Bytes) (a : WriteAnswer) : writtenFrames [.write f a] = [f] := rfl

@[simp] theorem busBytes_append (a b : List Call) : busBytes (a ++ b) = busBytes a ++ busBytes b :=
  List.flatMap_append

@[simp] theorem busBytes_read (d : Duration) (r : Bytes) : busBytes [.read d r] = [] := rfl

@[simp] theorem busBytes_write_done (f : Bytes) : busBytes [.write f .done] = f := List.append_nil f

@[simp] theorem busBytes_write_failed (f : Bytes) (x : FaultCause) (n : Nat) :
    busBytes [.write f (.failed x n)] = f.take n :=
  List.append_nil _

/-- Whatever the transport answers to a write, a prefix of the frame reaches the bus (U7). -/
theorem busBytes_write_prefix (f : Bytes) (a : WriteAnswer) : busBytes [.write f a] <+: f := by
  cases a with
  | done => rw [busBytes_write_done]
  | failed x n => rw [busBytes_write_failed]; exact List.take_prefix n f

/-- The one call, if any, that a command adds to the history: a send writes one frame of the block's own that can be
held, or is refused before any access; a receive command reads once; the others add nothing (R48, R54, R57). -/
theorem exec_calls_cases {i : Instr} {s t : State} (h : exec i s = .next t) :
    (t.calls = s.calls ∧ (isSend i = true → t.responses = s.responses ++ [.refused none])) ∨
    (isSend i = true ∧ ∃ dst p, Within s.cfg (dataFrame s dst p).length ∧
      t.calls = s.calls ++ [.write (dataFrame s dst p) s.writeAnswer] ∧
      (t.responses = s.responses ++ [.ok .nothing] → s.writeAnswer = .done)) ∨
    (isSend i = false ∧ ∃ d, t.calls = s.calls ++ [.read d s.readAnswer]) := by
  cases hs : isSend i with
  | true =>
    obtain ⟨dst, p, rfl⟩ := exec_send hs h
    rcases s.send_cases (dataFrame s dst p) with ⟨hw, ha, e⟩ | ⟨hw, x, n, -, e⟩ | ⟨-, e⟩ <;> rw [e]
    · exact .inr (.inl ⟨rfl, dst, p, hw, rfl, fun _ => ha⟩)
    · exact .inr (.inl ⟨rfl, dst, p, hw, rfl, fun hr => by simp at hr⟩)
    · exact .inl ⟨rfl, fun _ => rfl⟩
  | false =>
    cases hr : readTimeout i with
    | none => exact .inl ⟨(exec_calls_quiet hs hr h).1, nofun⟩
    | some d => exact .inr (.inr ⟨rfl, d, (exec_calls_read hr h).1⟩)

/-! ### Capacity -/

theorem within_of_le {c : Config} {m n : Nat} (hle : m ≤ n) (h : Within c n) : Within c m :=
  fun k hk => hle.trans (h k hk)

/-- A received payload is a part of the bytes read, so it can be held when they can (R57). -/
theorem within_payload_of_isMessageOf {c : Config} {r : Bytes} {m : Message} (hm : IsMessageOf r m)
    (h : Within c r.length) : Within c m.payload.length := by
  obtain ⟨-, -, -, -, -, hp⟩ := hm
  rw [hp, List.length_drop]
  exact within_of_le (Nat.sub_le _ _) h

/-- A read in the history after a command stood there before or is the command's own. -/
theorem mem_readAnswers_exec {i : Instr} {s t : State} (h : exec i s = .next t) {r : Bytes}
    (hr : r ∈ readAnswers t.calls) : r ∈ readAnswers s.calls ∨ r = s.readAnswer := by
  rcases exec_calls_cases h with ⟨e, -⟩ | ⟨-, dst, p, -, e, -⟩ | ⟨-, d, e⟩ <;> rw [e] at hr
  · exact .inl hr
  · exact .inl (by simpa using hr)
  · simpa using hr

/-- A frame in the history after a command stood there before or can be held. -/
theorem mem_writtenFrames_exec {i : Instr} {s t : State} (h : exec i s = .next t) {f : Bytes}
    (hf : f ∈ writtenFrames t.calls) : f ∈ writtenFrames s.calls ∨ Within s.cfg f.length := by
  rcases exec_calls_cases h with ⟨e, -⟩ | ⟨-, dst, p, hw, e, -⟩ | ⟨-, d, e⟩ <;> rw [e] at hf
  · exact .inl hf
  · rw [writtenFrames_append, writtenFrames_write, List.mem_append, List.mem_singleton] at hf
    exact hf.imp_right (by rintro rfl; exact hw)
  · exact .inl (by simpa using hf)

/-- A command's own read is within `BUF_MAX`, and so is the payload it caches from it. -/
theorem exec_keeps_readsWithinCapacity {i : Instr} {s t : State} (hinv : ReadsWithinCapacity s)
    (h : exec i s = .next t) : ReadsWithinCapacity t := by
  obtain ⟨hreads, hcache⟩ := hinv
  obtain ⟨-, hcfg⟩ := exec_addr_cfg h
  rw [ReadsWithinCapacity, hcfg]
  refine ⟨fun r hr => ?_, fun hv => ?_⟩
  · rcases mem_readAnswers_exec h hr with hold | rfl
    · exact hreads r hold
    · exact s.readAnswer_within
  · rcases exec_cache_cases h with ⟨hlast, hvalid, -⟩ | ⟨d, m, -, -, hm, rfl⟩
    · rw [hlast]
      exact hcache (hvalid ▸ hv)
    · exact within_payload_of_isMessageOf hm s.readAnswer_within

/-- What R57 says of the response `r` a command gives in `s`: a sequence it carries can be held, except the cache in
RD_LAST's answer and the operand that a refused ACCUMULATE returns. -/
def RespectsCapacity (i : Instr) (s : State) : Response → Prop
  | .ok (.bytes b) => Within s.cfg b.length
  | .ok (.message m) =>
    (i ≠ .rdLast → Within s.cfg m.payload.length) ∧ (i = .rdLast → s.lastValid = true ∧ m = s.last)
  | .err _ (some b) => Within s.cfg b.length
  | .refused (some b) => ∃ d, i = .accumulate b d
  | .ok .nothing | .ok .noMessage | .err _ none | .refused none => True

theorem answerBytes_respectsCapacity (i : Instr) (s : State) (b : Bytes) :
    ∃ r, s.answerBytes b = s.respond r ∧ RespectsCapacity i s r := by
  rcases s.answerBytes_cases b with ⟨hw, e⟩ | ⟨-, e⟩
  · exact ⟨_, e, hw⟩
  · exact ⟨_, e, trivial⟩

theorem send_respectsCapacity (i : Instr) (s : State) (f : Bytes) :
    ∃ r, (s.send f).responses = s.responses ++ [r] ∧ RespectsCapacity i s r := by
  rcases s.send_cases f with ⟨-, -, e⟩ | ⟨-, x, n, -, e⟩ | ⟨-, e⟩ <;> rw [e] <;> exact ⟨_, rfl, trivial⟩

theorem chkVerify_respectsCapacity {buf : Bytes} {s t : State} (h : exec (.chkVerify buf) s = .next t) :
    ∃ r, t.responses = s.responses ++ [r] ∧ RespectsCapacity (.chkVerify buf) s r := by
  cases h
  split
  · rcases checksumTest_cases buf with ⟨-, e⟩ | ⟨-, e⟩ <;> rw [e] <;> exact ⟨_, rfl, trivial⟩
  · exact ⟨_, rfl, trivial⟩

theorem readRaw_respectsCapacity {d : Duration} {s t : State} (h : exec (.readRaw d) s = .next t) :
    ∃ r, t.responses = s.responses ++ [r] ∧ RespectsCapacity (.readRaw d) s r := by
  cases h
  rcases rawTest_cases s.readAnswer with ⟨-, e⟩ | ⟨-, -, e⟩ | ⟨-, -, e⟩ <;> rw [e]
  · exact ⟨_, rfl, trivial⟩
  · exact ⟨_, rfl, trivial⟩
  · exact ⟨_, rfl, s.readAnswer_within⟩

/-- The extended buffer is answered or returned only after it passed the capacity test (44_receive R131). -/
theorem accumulate_respectsCapacity {buf : Bytes} {d : Duration} {s t : State}
    (h : exec (.accumulate buf d) s = .next t) :
    ∃ r, t.responses = s.responses ++ [r] ∧ RespectsCapacity (.accumulate buf d) s r := by
  cases h
  split
  next hfits =>
    have hw : Within s.cfg (append buf s.readAnswer).length := by
      rw [append_eq, List.length_append]
      exact (fits_iff_within _ _).1 hfits
    rcases checksumTest_cases s.readAnswer with ⟨-, e⟩ | ⟨-, e⟩ <;> rw [e] <;> exact ⟨_, rfl, hw⟩
  next => exact ⟨_, rfl, d, rfl⟩

theorem receive_respectsCapacity {d : Duration} {s t : State} (h : exec (.receive d) s = .next t) :
    ∃ r, t.responses = s.responses ++ [r] ∧ RespectsCapacity (.receive d) s r := by
  cases h
  rcases receiveTest_cases s.readAnswer with ⟨-, e⟩ | ⟨-, e⟩ | ⟨-, -, -, e⟩ | ⟨-, -, -, e⟩ | ⟨-, m, hm, e⟩ <;> rw [e]
  case inr.inr.inr.inr =>
    exact ⟨_, rfl, fun _ => within_payload_of_isMessageOf hm s.readAnswer_within, nofun⟩
  all_goals exact ⟨_, rfl, trivial⟩

/-- RD_LAST answers *none* while nothing has been received, and the cache afterwards (44_receive R133). -/
theorem exec_rdLast_cases (s : State) :
    (s.lastValid = false ∧ exec .rdLast s = .next (s.respond (.ok .noMessage))) ∨
      (s.lastValid = true ∧ exec .rdLast s = .next (s.respond (.ok (.message s.last)))) := by
  cases hv : s.lastValid with
  | false => exact .inl ⟨rfl, exec_rdLast_unwritten hv⟩
  | true => exact .inr ⟨rfl, by simp only [exec, execRdLast, hv]⟩

theorem rdLast_respectsCapacity {s t : State} (h : exec .rdLast s = .next t) :
    ∃ r, t.responses = s.responses ++ [r] ∧ RespectsCapacity .rdLast s r := by
  rcases exec_rdLast_cases s with ⟨-, e⟩ | ⟨hv, e⟩ <;> cases e.symm.trans h
  · exact ⟨_, rfl, trivial⟩
  · exact ⟨_, rfl, fun hne => absurd rfl hne, fun _ => ⟨hv, rfl⟩⟩

/-- Every command answers within `BUF_MAX`: the sends carry nothing, the receive commands what they read, the building
commands what they tested. -/
theorem exec_respectsCapacity {i : Instr} {s t : State} (h : exec i s = .next t) :
    ∃ r, t.responses = s.responses ++ [r] ∧ RespectsCapacity i s r := by
  cases hs : isSend i with
  | true =>
    obtain ⟨dst, p, rfl⟩ := exec_send hs h
    exact send_respectsCapacity i s _
  | false =>
    cases i <;> simp only [isSend, Bool.true_eq_false] at hs
    case chkVerify => exact chkVerify_respectsCapacity h
    case readRaw => exact readRaw_respectsCapacity h
    case accumulate => exact accumulate_respectsCapacity h
    case receive => exact receive_respectsCapacity h
    case rdLast => exact rdLast_respectsCapacity h
    all_goals
      cases h
      obtain ⟨r, e, hr⟩ := answerBytes_respectsCapacity _ s _
      exact ⟨r, by rw [e]; rfl, hr⟩

/-! ### What RD_LAST shows -/

theorem answer_of_responses {i : Instr} {s t : State} {r : Response} (h : exec i s = .next t)
    (hr : t.responses = s.responses ++ [r]) : answer i s = some r := by
  rw [answer_of_next h, hr, List.getLast?_concat]

theorem answer_rdLast_of_lastValid {s : State} (hv : s.lastValid = true) :
    answer .rdLast s = some (.ok (.message s.last)) := by
  rcases exec_rdLast_cases s with ⟨hv', -⟩ | ⟨-, e⟩
  · rw [hv] at hv'
    cases hv'
  · exact answer_of_responses e rfl

theorem answer_rdLast_of_not_lastValid {s : State} (hv : s.lastValid = false) :
    answer .rdLast s = some (.ok .noMessage) :=
  answer_of_responses (exec_rdLast_unwritten hv) rfl

/-- RD_LAST's answer is fixed by the cache (R49). -/
theorem answer_rdLast_congr {s u : State} (hlast : u.last = s.last) (hvalid : u.lastValid = s.lastValid) :
    answer .rdLast u = answer .rdLast s := by
  cases hv : s.lastValid with
  | false => rw [answer_rdLast_of_not_lastValid hv, answer_rdLast_of_not_lastValid (hvalid.trans hv)]
  | true => rw [answer_rdLast_of_lastValid hv, answer_rdLast_of_lastValid (hvalid.trans hv), hlast]

/-! ### The statements -/

/-- Settles O53: an idle step changes nothing, and every command keeps the invariant. -/
theorem readsStayWithinCapacity : Obligations.ReadsStayWithinCapacity := by
  intro s t hinv h
  rcases step_cases h with ⟨-, rfl⟩ | ⟨r, rest, i, -, -, hexec⟩
  · exact hinv
  · have hinv' : ReadsWithinCapacity { s with pending := rest } := hinv
    exact exec_keeps_readsWithinCapacity hinv' hexec

/-- Settles O33: a RECEIVE that answers a Message leaves that Message in the cache, every other command leaves the
cache as it was, and the cache fixes RD_LAST's answer. -/
theorem rdLastSeesTheLastSuccessfulReceive : Obligations.RdLastSeesTheLastSuccessfulReceive := by
  constructor
  · intro d s u m h hans
    rcases exec_read rfl h with ⟨r, rfl, -, hne, -⟩ | ⟨-, m', -, -, rfl⟩
    · rw [answer_of_responses h rfl] at hans
      exact absurd (Option.some.inj hans) (hne m)
    · rw [← hans, answer_of_responses h rfl]
      exact answer_rdLast_of_lastValid rfl
  · intro i s u h hne
    rcases exec_cache_cases h with ⟨hlast, hvalid, -⟩ | ⟨d, m, hi, -, -, rfl⟩
    · exact answer_rdLast_congr hlast hvalid
    · exact absurd (answer_of_responses h rfl) (hne d m hi)

/-- Settles O42: the one call a command adds puts nothing on the bus, or a prefix of the frame it wrote. -/
theorem busCarriesPartsOfFrames : Obligations.BusCarriesPartsOfFrames := by
  intro i s t h
  rcases exec_calls_cases h with ⟨e, hrefused⟩ | ⟨hs, dst, p, -, e, hdone⟩ | ⟨hs, d, e⟩
  · refine ⟨[], by rw [e, List.append_nil], fun _ => rfl, fun hs =>
      ⟨0, _, dataFrame_wellFormed s 0 [], List.nil_prefix, fun hok => ?_⟩⟩
    rw [hrefused hs] at hok
    simp at hok
  · refine ⟨busBytes [.write (dataFrame s dst p) s.writeAnswer], by rw [e, busBytes_append], by simp [hs], fun _ =>
      ⟨dst, _, dataFrame_wellFormed s dst p, busBytes_write_prefix _ _, fun hok => ?_⟩⟩
    rw [hdone hok, busBytes_write_done]
  · exact ⟨[], by rw [e, busBytes_append, busBytes_read], fun _ => rfl, by simp [hs]⟩

/-- Settles O48: the response respects the capacity, by the command that gives it, and a send writes only what can be
held. -/
theorem nothingLongerThanCapacity : Obligations.NothingLongerThanCapacity := by
  intro i s t r h hr
  obtain ⟨r', hr', hcap⟩ := exec_respectsCapacity h
  obtain rfl : r' = r := by simpa [hr] using hr'.symm
  refine ⟨?_, ?_, ?_, ?_, ?_, fun f => mem_writtenFrames_exec h⟩
  · rintro b rfl
    exact hcap
  · rintro e b rfl
    exact hcap
  · rintro m rfl
    exact hcap.1
  · rintro m rfl
    exact hcap.2
  · rintro b rfl
    exact hcap

end Sys2Proof.Machine

/-! SUPPORT. Proofs of the statements about the command port and the frames (30_encoding): the decoder and the encoder
(R75 to R78), the frame and its LENGTH byte (R62, R73), what the receive commands ignore (R72), the pseudo-commands as
laws (R80), and a run through the pending requests (R81). -/

namespace Sys2Proof.Machine

open Sys2Proof.Safety

/-! ### The decoder and the encoder -/

/-- The sixteen codes have a command (R76). -/
theorem decode_ok_of_code_le {r : Request} (h : r.code.toNat ≤ 0xF) : ∃ i, decode r = .ok i := by
  unfold decode
  split
  case h_17 =>
    simp only [imp_false] at *
    omega
  all_goals exact ⟨_, rfl⟩

/-- A code above the sixteen is rejected by name (R78). -/
theorem decode_error_of_lt_code {r : Request} (h : 0xF < r.code.toNat) :
    decode r = .error (.reservedCode r.code) := by
  unfold decode
  split
  case h_17 => rfl
  all_goals omega

theorem decode_encode (i : Instr) : decode (encode i) = .ok i := by
  cases i <;> rfl

/-- The request with the operand lines its command does not have set idle (R76). -/
def idleUnused (r : Request) : Request where
  code := r.code
  dst := bif usesDst r.code then r.dst else 0
  bytes := bif usesBytes r.code then r.bytes else []
  value := bif usesValue r.code then r.value else 0
  values := bif usesValues r.code then r.values else []
  timeout := bif usesTimeout r.code then r.timeout else ⟨0⟩

/-- The decoder forgets the unused operand lines and nothing else: the code determines which lines the command keeps. -/
theorem encode_of_decode {r : Request} {i : Instr} (h : decode r = .ok i) : encode i = idleUnused r := by
  obtain ⟨code, dst, bytes, value, values, timeout⟩ := r
  unfold decode at h
  split at h
  case h_17 => cases h
  all_goals
    next hcode =>
      cases h
      obtain ⟨-, rfl⟩ := BitVec.toNat_eq_nat.1 hcode
      rfl

theorem cond_eq_self_of_or_beq {α : Type} [BEq α] [LawfulBEq α] {b : Bool} {x y : α} (h : (b || x == y) = true) :
    (bif b then x else y) = x := by
  cases b with
  | true => rfl
  | false => exact (eq_of_beq h).symm

/-- In a well-formed request the unused operand lines are idle already. -/
theorem idleUnused_of_wellFormed {r : Request} (h : r.WellFormed = true) : idleUnused r = r := by
  simp only [Request.WellFormed, Bool.and_eq_true] at h
  obtain ⟨⟨⟨⟨⟨-, hdst⟩, hbytes⟩, hvalue⟩, hvalues⟩, htimeout⟩ := h
  simp only [idleUnused, cond_eq_self_of_or_beq, hdst, hbytes, hvalue, hvalues, htimeout]

theorem decodeTableWord_of_tableRequest {n w : Nat} {i : Instr} (h : tableRequest n w = encode i) :
    decodeTableWord n w = some i := by
  rw [decodeTableWord, h, decode_encode]

/-! ### The frames in the history -/

/-- A frame in the history after a command stood there before or is one the block built from its own address. -/
theorem mem_writtenFrames_exec_dataFrame {i : Instr} {s t : State} (h : exec i s = .next t) {f : Bytes}
    (hf : f ∈ writtenFrames t.calls) : f ∈ writtenFrames s.calls ∨ ∃ dst p, f = dataFrame s dst p := by
  rcases exec_calls_cases h with ⟨e, -⟩ | ⟨-, dst, p, -, e, -⟩ | ⟨-, d, e⟩ <;> rw [e] at hf
  · exact .inl hf
  · rw [writtenFrames_append, writtenFrames_write, List.mem_append, List.mem_singleton] at hf
    exact hf.imp_right fun hf => ⟨dst, p, hf⟩
  · exact .inl (by simpa using hf)

/-- The one frame a command adds is well-formed, and neither the address nor the markers of the earlier ones change. -/
theorem exec_keeps_writesAreFrames {i : Instr} {s t : State} (hinv : WritesAreFrames s) (h : exec i s = .next t) :
    WritesAreFrames t := by
  obtain ⟨haddr, hcfg⟩ := exec_addr_cfg h
  intro f hf
  rw [haddr, hcfg]
  rcases mem_writtenFrames_exec_dataFrame h hf with hold | ⟨dst, p, rfl⟩
  · exact hinv f hold
  · exact ⟨dst, dataFrame_wellFormed s dst p⟩

/-! ### The address and the markers as inputs of the receive commands -/

/-- The state of a node with another address and another configuration. -/
def State.withAddrCfg (s : State) (a : Byte) (c : Config) : State := { s with addr := a, cfg := c }

theorem fits_withAddrCfg {s : State} {c : Config} (h : c.bufMax = s.cfg.bufMax) (a : Byte) (n : Nat) :
    fits (s.withAddrCfg a c).cfg n = fits s.cfg n := by
  simp only [fits, State.withAddrCfg, h]

theorem State.readAnswer_withAddrCfg {s : State} {c : Config} (h : c.bufMax = s.cfg.bufMax) (a : Byte) :
    (s.withAddrCfg a c).readAnswer = s.readAnswer := by
  simp only [State.readAnswer, State.withAddrCfg, limit, h]

theorem State.afterRead_withAddrCfg {s : State} {c : Config} (h : c.bufMax = s.cfg.bufMax) (a : Byte) (d : Duration) :
    (s.withAddrCfg a c).afterRead d = (s.afterRead d).withAddrCfg a c := by
  simp only [State.afterRead, State.readAnswer_withAddrCfg h]
  rfl

theorem State.deliver_withAddrCfg (s : State) (a : Byte) (c : Config) (x : Except Error Result) :
    (s.withAddrCfg a c).deliver x = (s.deliver x).withAddrCfg a c := by
  cases x <;> rfl

/-- A receive command carries any address, and any configuration with the same `BUF_MAX`, through unread (R72). -/
theorem exec_withAddrCfg {i : Instr} {d : Duration} (hr : readTimeout i = some d) {s : State} {c : Config}
    (h : c.bufMax = s.cfg.bufMax) (a : Byte) :
    ∃ t, exec i s = .next t ∧ exec i (s.withAddrCfg a c) = .next (t.withAddrCfg a c) := by
  have answer := State.readAnswer_withAddrCfg h a
  have after := State.afterRead_withAddrCfg h a
  cases i <;> simp only [readTimeout, reduceCtorEq] at hr
  case readRaw d =>
    refine ⟨_, rfl, ?_⟩
    simp only [exec, execReadRaw, answer, after, State.deliver_withAddrCfg]
  case accumulate buf d =>
    refine ⟨_, rfl, ?_⟩
    simp only [exec, execAccumulate, answer, after, fits_withAddrCfg h]
    split
    · cases checksumTest s.readAnswer <;> rfl
    · rfl
  case receive d =>
    refine ⟨_, rfl, ?_⟩
    simp only [exec, execReceive, answer, after]
    cases receiveTest s.readAnswer <;> rfl

/-! ### The answers of the commands a pseudo-command expands to -/

/-- A command that answers bytes answers those it computed, and exactly when they can be held. -/
theorem answer_bytes_iff {i : Instr} {s : State} {b q : Bytes} (h : exec i s = .next (s.answerBytes b)) :
    answer i s = some (.ok (.bytes q)) ↔ Within s.cfg b.length ∧ b = q := by
  rcases s.answerBytes_cases b with ⟨hw, e⟩ | ⟨hw, e⟩ <;> rw [e] at h <;> rw [answer_of_responses h rfl]
  · simp [hw]
  · simp [hw]

/-- Sending the bytes another command answered is sending the bytes it computed. -/
theorem exec_sendData_of_answer {i : Instr} {s : State} {b q : Bytes} (dst : Byte)
    (h : exec i s = .next (s.answerBytes b)) (ha : answer i s = some (.ok (.bytes q))) :
    exec (.sendData dst q) s = .next (s.send (dataFrame s dst b)) := by
  obtain ⟨-, rfl⟩ := (answer_bytes_iff h).1 ha
  rfl

/-- A frame that can be held is handed to the transport, whatever the transport answers (43_send R120, R125). -/
theorem State.send_calls_of_within {s : State} {f : Bytes} (hw : Within s.cfg f.length) :
    (s.send f).calls = s.calls ++ [.write f s.writeAnswer] := by
  rcases s.send_cases f with ⟨-, -, e⟩ | ⟨-, x, n, -, e⟩ | ⟨hnot, -⟩
  · rw [e]; rfl
  · rw [e]; rfl
  · exact absurd hw hnot

/-- A command that delivers the outcome of a test raises exactly the test's error. -/
theorem answer_err_iff_of_deliver {i : Instr} {s u : State} {β : Type} {x : Except Error β} {g : β → Result}
    {e : Error} (h : exec i s = .next (u.deliver (x.map g))) : answer i s = some (.err e none) ↔ x = .error e := by
  rw [answer_of_next h]
  cases x <;> simp [Except.map, State.deliver]

theorem answer_readRaw_err_iff {s : State} {t : Duration} {e : Error} (h : 6 ≤ s.readAnswer.length) :
    answer (.readRaw t) s = some (.err e none) ↔ checksumTest s.readAnswer = .error e := by
  have hraw : rawTest s.readAnswer = checksumTest s.readAnswer := if_neg (Nat.not_lt.2 h)
  rw [← hraw]
  exact answer_err_iff_of_deliver rfl

theorem answer_chkVerify_err_iff {s : State} {b : Bytes} {e : Error} (hw : Within s.cfg b.length) :
    answer (.chkVerify b) s = some (.err e none) ↔ checksumTest b = .error e :=
  answer_err_iff_of_deliver (congrArg Host.Outcome.next (if_pos ((fits_iff_within _ _).2 hw)))

/-! ### A run through the pending requests -/

/-- A command leaves the requests that wait behind it (R81). -/
theorem exec_keeps_pending {i : Instr} {s t : State} (h : exec i s = .next t) : t.pending = s.pending := by
  have hself : exec i s = .next { t with pending := s.pending } := exec_pending s.pending h
  rw [h] at hself
  injection hself with hself
  rw [hself]

/-- A command gives one response and makes at most one transport call, each recorded behind the earlier ones (R49). -/
theorem exec_one_response_one_call {i : Instr} {s t : State} (h : exec i s = .next t) :
    ∃ r c, t.responses = s.responses ++ [r] ∧ t.calls = s.calls ++ Option.toList c := by
  obtain ⟨r, hr, -⟩ := exec_respectsCapacity h
  rcases exec_calls_cases h with ⟨e, -⟩ | ⟨-, dst, p, -, e, -⟩ | ⟨-, d, e⟩
  · exact ⟨r, none, hr, by rw [e]; simp⟩
  · exact ⟨r, some _, hr, e⟩
  · exact ⟨r, some _, hr, e⟩

/-- The commands waiting in `p`, all of the sixteen codes, are performed in order by as many steps. -/
theorem run_performs_pending (p : List Request) {s : State} (hp : s.pending = p)
    (hcodes : ∀ r ∈ p, r.code.toNat ≤ 0xF) :
    ∃ is t rs cs, p.map decode = is.map Except.ok ∧ Sys2Proof.core.run p.length s = .next t ∧ t.pending = [] ∧
      PerformedInOrder is { s with pending := [] } rs cs t ∧ rs.length = p.length ∧
      t.responses = s.responses ++ rs ∧ t.calls = s.calls ++ cs.flatMap Option.toList := by
  induction p generalizing s with
  | nil =>
    have hs : s = { s with pending := [] } := by rw [← hp]
    exact ⟨[], s, [], [], rfl, rfl, hp, ⟨rfl, rfl, hs⟩, rfl, by simp, by simp⟩
  | cons r rest ih =>
    obtain ⟨hr, hrest⟩ := List.forall_mem_cons.1 hcodes
    obtain ⟨i, hi⟩ := decode_ok_of_code_le hr
    obtain ⟨u, hu⟩ := exec_next i { s with pending := rest }
    obtain ⟨r₀, c₀, hresp, hcalls⟩ := exec_one_response_one_call hu
    obtain ⟨is, t, rs, cs, hdec, hrun, ht, hperf, hlen, htresp, htcalls⟩ := ih (exec_keeps_pending hu) hrest
    refine ⟨i :: is, t, r₀ :: rs, c₀ :: cs, by simp [hi, hdec], ?_, ht, ?_, by simp [hlen], ?_, ?_⟩
    · exact (run_succ_next ((step_of_decode_ok hp hi).trans hu)).trans hrun
    · exact ⟨_, r₀, rs, c₀, cs, exec_pending (s := { s with pending := rest }) [] hu, hresp, hcalls, rfl, rfl, hperf⟩
    · rw [htresp, hresp, List.append_assoc]; rfl
    · rw [htcalls, hcalls, List.append_assoc]; rfl

/-! ### The statements -/

/-- Settles O6: decoding keeps the code and the operand lines of its command, and in a well-formed request there are no
others. -/
theorem decodeAndEncodeAgree : Obligations.DecodeAndEncodeAgree :=
  ⟨decode_encode, fun _ _ hwf h => (encode_of_decode h).trans (idleUnused_of_wellFormed hwf)⟩

/-- Settles O50: an idle step changes nothing, and every command keeps the invariant. -/
theorem everyWriteIsAWellFormedFrame : Obligations.EveryWriteIsAWellFormedFrame := by
  intro s t hinv h
  rcases step_cases h with ⟨-, rfl⟩ | ⟨r, rest, i, -, -, hexec⟩
  · exact hinv
  · have hinv' : WritesAreFrames { s with pending := rest } := hinv
    exact exec_keeps_writesAreFrames hinv' hexec

/-- Settles O46: a receive command reads of the configuration `BUF_MAX` alone, and carries the rest through. -/
theorem receiversIgnoreAddressAndMarkers : Obligations.ReceiversIgnoreAddressAndMarkers :=
  fun _ _ s a x y hr => exec_withAddrCfg (c := { s.cfg with start := x, start2 := y }) hr rfl a

/-- Settles O47: the expansions are the definitions of the commands, once an answer is known to be the bytes computed;
the last law compares both commands with the checksum test. -/
theorem pseudoCommandExpansions : Obligations.PseudoCommandExpansions := by
  intro s d p text v vs t
  refine ⟨rfl, rfl, fun q ha => (exec_sendData_of_answer d rfl ha).symm,
    fun q ha => (exec_sendData_of_answer d rfl ha).symm, fun q ha => (exec_sendData_of_answer d rfl ha).symm, ?_, rfl,
    ?_⟩
  · intro f ha
    obtain ⟨hw, rfl⟩ := (answer_bytes_iff rfl).1 ha
    exact ⟨_, rfl, State.send_calls_of_within hw⟩
  · intro h6 e
    rw [answer_readRaw_err_iff h6, answer_chkVerify_err_iff s.readAnswer_within]

/-- Settles O55: by induction on the pending requests, each of which decodes and takes one step. -/
theorem everyPendingCommandIsAnswered : Obligations.EveryPendingCommandIsAnswered :=
  fun s hcodes => run_performs_pending s.pending rfl hcodes

/-- Settles O4: the decoder's two ranges of codes, and the step on a rejected request. -/
theorem onlyCodesAboveFifteenAreRefused : Obligations.OnlyCodesAboveFifteenAreRefused :=
  ⟨fun _ => decode_ok_of_code_le, fun _ _ _ hp hcode => step_of_decode_error hp (decode_error_of_lt_code hcode)⟩

/-- Settles O5: each row of the table is the encoding of its command with idle operands. -/
theorem codeTableRowsDecode : Obligations.CodeTableRowsDecode := by
  unfold Obligations.CodeTableRowsDecode
  and_intros <;> exact decodeTableWord_of_tableRequest rfl

/-- Settles O49: the byte at offset 1 is the frame's length modulo 256, and the frame has six bytes around its
payload. -/
theorem lengthByteIsTruthfulUpTo249 : Obligations.LengthByteIsTruthfulUpTo249 := by
  intro s d p hnone
  have hw : Within s.cfg (dataFrame s d p).length := fun m hm => by rw [hnone] at hm; cases hm
  obtain ⟨c, hframe⟩ := dataFrame_eq s d p
  refine ⟨_, BitVec.ofNat 8 (p.length + 6), (answer_bytes_iff rfl).2 ⟨hw, rfl⟩, by rw [hframe]; rfl,
    BitVec.toNat_ofNat _ _, ?_⟩
  rw [BitVec.toNat_ofNat, dataFrame_length]
  omega

end Sys2Proof.Machine

/-! SUPPORT. Proofs of the statements about the frame-building commands (40_frame_build): what BUILD_DATA and BUILD_PING
answer (R90, R91), and which corruptions of a built frame the validator detects (R92). -/

namespace Sys2Proof.Machine

open Sys2Proof.Safety

/-! ### The closed form of a frame -/

@[simp] theorem closedFrame_length (c : Config) (a d : Byte) (p : Bytes) :
    (closedFrame c a d p).length = p.length + 6 := by
  simp [closedFrame]

theorem take_closedFrame (c : Config) (a d : Byte) (p : Bytes) :
    (closedFrame c a d p).take 5 = [c.start, BitVec.ofNat 8 (p.length + 6), a, d, c.start2] := rfl

theorem take_drop_closedFrame (c : Config) (a d : Byte) (p : Bytes) :
    ((closedFrame c a d p).drop 5).take p.length = p := by
  simp [closedFrame]

/-- The frame of an empty payload is the six-byte ping frame (R91). -/
theorem closedFrame_nil (c : Config) (a d : Byte) :
    closedFrame c a d [] = [c.start, 0x06, a, d, c.start2,
      neg8 (BitVec.ofNat 8 (c.start.toNat + 6 + a.toNat + d.toNat + c.start2.toNat))] := rfl

/-- An instance constructed with any address and configuration builds the closed form, so it is well-formed (R73). -/
theorem closedFrame_wellFormed (c : Config) (a d : Byte) (p : Bytes) :
    WellFormedFrame c a d (closedFrame c a d p) := by
  have hframe := closedFrame_eq_dataFrame (State.construct c a [] []) d p
  exact hframe ▸ dataFrame_wellFormed (State.construct c a [] []) d p

theorem sum8_closedFrame (c : Config) (a d : Byte) (p : Bytes) : sum8 (closedFrame c a d p) = 0 := by
  obtain ⟨-, -, -, -, -, -, hsum⟩ := closedFrame_wellFormed c a d p
  exact hsum

/-! ### The building commands -/

theorem State.answerBytes_of_within {s : State} {b : Bytes} (h : Within s.cfg b.length) :
    s.answerBytes b = s.respond (.ok (.bytes b)) :=
  if_pos ((fits_iff_within _ _).2 h)

theorem State.answerBytes_of_not_within {s : State} {b : Bytes} (h : ¬ Within s.cfg b.length) :
    s.answerBytes b = s.respond (.refused none) :=
  if_neg (mt (fits_iff_within _ _).1 h)

theorem exec_buildData (d : Byte) (p : Bytes) (s : State) :
    exec (.buildData d p) s = .next (s.answerBytes (closedFrame s.cfg s.addr d p)) := by
  rw [closedFrame_eq_dataFrame]
  rfl

theorem exec_buildPing (d : Byte) (s : State) : exec (.buildPing d) s = exec (.buildData d []) s :=
  congrArg (fun f => Host.Outcome.next (s.answerBytes f)) (pingFrame_eq s d)

theorem exec_buildData_of_within {d : Byte} {p : Bytes} {s : State} (h : Within s.cfg (p.length + 6)) :
    exec (.buildData d p) s = .next (s.respond (.ok (.bytes (closedFrame s.cfg s.addr d p)))) := by
  rw [exec_buildData, State.answerBytes_of_within (by rwa [closedFrame_length])]

theorem exec_buildData_of_not_within {d : Byte} {p : Bytes} {s : State} (h : ¬ Within s.cfg (p.length + 6)) :
    exec (.buildData d p) s = .next (s.respond (.refused none)) := by
  rw [exec_buildData, State.answerBytes_of_not_within (by rwa [closedFrame_length])]

/-! ### The sum of a corrupted sequence -/

/-- A changed byte changes the sum by the difference. -/
theorem sum8_set {b : Bytes} {k : Nat} {y : Byte} (h : b[k]? = some y) (x : Byte) :
    sum8 (b.set k x) = sum8 b + (x - y) := by
  induction b generalizing k with
  | nil => cases h
  | cons z b ih =>
    cases k with
    | zero =>
      obtain rfl : z = y := by simpa using h
      rw [List.set_cons_zero, sum8_cons, sum8_cons]
      abel
    | succ k =>
      rw [List.set_cons_succ, sum8_cons, sum8_cons, ih (by simpa using h), add_assoc]

/-- Two changed bytes with the same sum modulo 256 leave the sum as it was. -/
theorem sum8_set_set {b : Bytes} {j k : Nat} {x y x' y' : Byte} (hjk : j ≠ k) (hx : b[j]? = some x)
    (hy : b[k]? = some y) (h : (x'.toNat + y'.toNat) % 256 = (x.toNat + y.toNat) % 256) :
    sum8 ((b.set j x').set k y') = sum8 b := by
  have hpair : x' + y' = x + y := BitVec.eq_of_toNat_eq (by simpa only [BitVec.toNat_add] using h)
  have hk : (b.set j x')[k]? = some y := by rw [List.getElem?_set_ne hjk, hy]
  calc sum8 ((b.set j x').set k y')
      = sum8 b + (x' - x) + (y' - y) := by rw [sum8_set hk, sum8_set hx]
    _ = sum8 b + (x' + y' - (x + y)) := by abel
    _ = sum8 b := by rw [hpair, sub_self, add_zero]

theorem sum8_eq_iff (a b : Bytes) :
    sum8 a = sum8 b ↔ (a.map BitVec.toNat).sum % 256 = (b.map BitVec.toNat).sum % 256 := by
  rw [← BitVec.toNat_inj, sum8_toNat, sum8_toNat]

/-! ### What the validator accepts -/

theorem checksumTest_ok_iff (b : Bytes) : checksumTest b = .ok () ↔ sum8 b = 0 := by
  rcases checksumTest_cases b with ⟨h, e⟩ | ⟨h, e⟩ <;> rw [e]
  · exact iff_of_true rfl h
  · exact iff_of_false nofun h

/-- One changed byte of a zero-sum sequence is detected: the sum is then the difference of the two bytes. -/
theorem checksumTest_set {b : Bytes} {k : Nat} {x y : Byte} (h0 : sum8 b = 0) (h : b[k]? = some y) (hne : x ≠ y) :
    ∃ e, e ≠ 0 ∧ checksumTest (b.set k x) = .error (.checksumError e) := by
  have hsum : sum8 (b.set k x) ≠ 0 := by
    rw [sum8_set h, h0, zero_add]
    exact sub_ne_zero_of_ne hne
  exact ⟨_, hsum, if_neg hsum⟩

/-! ### The statements -/

/-- Settles O15: a built frame sums to zero, and the validator tests the sum alone. -/
theorem singleByteCorruptionIsDetected : Obligations.SingleByteCorruptionIsDetected := by
  intro c a d p
  have h0 := sum8_closedFrame c a d p
  refine ⟨fun q hq => ?_, fun k x y hy hne => checksumTest_set h0 hy hne, fun j k x y x' y' hjk hx hy hxy => ?_,
    fun g _ => ?_⟩
  · rw [take_closedFrame, take_closedFrame, hq]
  · rw [checksumTest_ok_iff, sum8_set_set hjk hx hy hxy, h0]
  · rw [checksumTest_ok_iff, ← sum8_eq_iff, h0]

/-- Settles O16: the command answers the bytes of the closed form. -/
theorem buildDataAnswersItsFrame : Obligations.BuildDataAnswersItsFrame :=
  fun d p s => ⟨rfl, exec_buildData_of_within, exec_buildData_of_not_within, closedFrame_length _ _ _ _,
    take_drop_closedFrame _ _ _ _, closedFrame_wellFormed s.cfg s.addr d p⟩

/-- Settles O17: BUILD_PING is BUILD_DATA of the empty payload, whose closed form is the six-byte frame. -/
theorem buildPingAnswersTheSixByteFrame : Obligations.BuildPingAnswersTheSixByteFrame := by
  intro d s
  have hping := exec_buildPing d s
  refine ⟨rfl, fun hw => hping.trans ?_, fun hw => hping.trans (exec_buildData_of_not_within hw), rfl, ?_, hping⟩
  · rw [exec_buildData_of_within hw, closedFrame_nil]
    rfl
  · rw [← closedFrame_nil]
    exact sum8_closedFrame s.cfg s.addr d []

end Sys2Proof.Machine

/-! SUPPORT. Proofs of the statements about the payload serialization commands (41_serialize): what SER_U32, SER_U32S
and SER_TEXT answer (R100 to R102), and that a big-endian integer is read back as it was (R104). -/

namespace Sys2Proof.Machine

open Sys2Proof.Safety

/-! ### Big-endian integers read back -/

/-- A four-byte read where an integer was encoded gives the integer (R104). -/
theorem memRead4_append_be32 (a : Bytes) (v : U32) (rest : Bytes) :
    memRead4 (a ++ (be32 v ++ rest)) a.length = .ok v := by
  rw [be32_eq_ofNat_div]
  exact (memRead4_append a rest _ _ _ _).trans (congrArg Except.ok (unBe32_ofNat_div v))

/-- An integer encoded at the end of a buffer is read back where the buffer ended (R104). -/
theorem memRead4_concat_be32 (a : Bytes) (v : U32) : memRead4 (a ++ be32 v) a.length = .ok v := by
  simpa using memRead4_append_be32 a v []

/-- Element `k` of an encoded sequence starts `4 * k` bytes after what stands before the sequence (R101). -/
theorem memRead4_append_flatMap_be32 (a : Bytes) {vs : List U32} {k : Nat} {v : U32} (h : vs[k]? = some v) :
    memRead4 (a ++ vs.flatMap be32) (a.length + 4 * k) = .ok v := by
  induction vs generalizing a k with
  | nil => cases h
  | cons u us ih =>
    rw [List.flatMap_cons]
    cases k with
    | zero =>
      obtain rfl : u = v := by simpa using h
      exact memRead4_append_be32 a u _
    | succ k =>
      have hoff : a.length + 4 * (k + 1) = (a ++ be32 u).length + 4 * k := by
        rw [List.length_append, be32_length]
        omega
      rw [hoff, ← List.append_assoc]
      exact ih (a ++ be32 u) (by simpa using h)

/-! ### The serializing commands -/

/-- A command that answers `n` bytes answers them when `n` bytes can be held, and refuses when not (20_memory R57). -/
theorem exec_of_answerBytes {i : Instr} {s : State} {b : Bytes} {n : Nat} (h : exec i s = .next (s.answerBytes b))
    (hlen : b.length = n) :
    (Within s.cfg n → exec i s = .next (s.respond (.ok (.bytes b)))) ∧
      (¬ Within s.cfg n → exec i s = .next (s.respond (.refused none))) := by
  subst hlen
  exact ⟨fun hw => by rw [h, State.answerBytes_of_within hw], fun hw => by rw [h, State.answerBytes_of_not_within hw]⟩

theorem exec_serU32 (buf : Bytes) (v : U32) (s : State) :
    exec (.serU32 buf v) s = .next (s.answerBytes (buf ++ be32 v)) := rfl

theorem exec_serU32s (buf : Bytes) (vs : List U32) (s : State) :
    exec (.serU32s buf vs) s = .next (s.answerBytes (buf ++ vs.flatMap be32)) := by
  rw [← appendU32s_eq]
  rfl

theorem exec_serText (text : Bytes) (s : State) :
    exec (.serText text) s = .next (s.answerBytes (text ++ [0x00])) := rfl

theorem length_append_be32 (buf : Bytes) (v : U32) : (buf ++ be32 v).length = buf.length + 4 :=
  List.length_append

theorem length_append_flatMap_be32 (buf : Bytes) (vs : List U32) :
    (buf ++ vs.flatMap be32).length = buf.length + 4 * vs.length := by
  rw [List.length_append, flatMap_be32_length]

/-! ### The receiver of an encoded integer -/

/-- RECEIVE answers the Message of every zero-sum buffer that is long enough to have one (44_receive R132). -/
theorem answer_receive_of_sum8_eq_zero {s : State} (t : Duration) (h0 : sum8 s.readAnswer = 0)
    (h9 : 9 ≤ s.readAnswer.length) :
    ∃ m, IsMessageOf s.readAnswer m ∧ answer (.receive t) s = some (.ok (.message m)) := by
  rcases receiveTest_cases s.readAnswer with ⟨hne, -⟩ | ⟨hnil, -⟩ | ⟨-, -, h6, -⟩ | ⟨-, -, hlt, -⟩ | ⟨-, m, hm, e⟩
  · exact absurd h0 hne
  · simp [hnil] at h9
  · omega
  · omega
  · refine ⟨m, hm, ?_⟩
    have hexec : exec (.receive t) s = .next (((s.afterRead t).cache m).respond (.ok (.message m))) := by
      simp only [exec, execReceive, e]
    exact answer_of_responses hexec rfl

/-- The payload of a frame starts at offset 5, where the receiver reads the message id (30_encoding R69). -/
theorem memRead4_closedFrame_be32 (c : Config) (a d : Byte) (v : U32) (rest : Bytes) :
    memRead4 (closedFrame c a d (be32 v ++ rest)) 5 = .ok v := by
  rw [closedFrame, List.append_assoc, List.append_assoc]
  exact memRead4_append_be32 [_, _, _, _, _] v _

/-! ### The statements -/

/-- Settles O11: the four bytes stand where they are read, at the end of the caller's buffer or at offset 5 of a
frame, and a frame that carries them has the length and the sum RECEIVE asks for. -/
theorem bigEndianRoundTrip : Obligations.BigEndianRoundTrip := by
  refine ⟨fun v => ⟨_, _, _, _, be32_eq_ofNat_div v, unBe32_ofNat_div v⟩, fun buf v s b hb => ?_,
    fun s peer d v rest t hread => ?_⟩
  · obtain ⟨-, rfl⟩ := (answer_bytes_iff (exec_serU32 buf v s)).1 hb
    exact memRead4_concat_be32 buf v
  · have h0 : sum8 s.readAnswer = 0 := by rw [hread, sum8_closedFrame]
    have h9 : 9 ≤ s.readAnswer.length := by
      rw [hread, closedFrame_length, List.length_append, be32_length]
      omega
    obtain ⟨m, ⟨-, -, -, -, hid, -⟩, hm⟩ := answer_receive_of_sum8_eq_zero t h0 h9
    rw [hread, memRead4_closedFrame_be32] at hid
    exact ⟨m, hm, (Except.ok.inj hid).symm⟩

/-- Settles O18: the command answers the buffer with the big-endian form of the integer appended. -/
theorem serU32AppendsBigEndian : Obligations.SerU32AppendsBigEndian := by
  intro buf v s
  simp only [← be32_eq_ofNat_div]
  have hlen := length_append_be32 buf v
  obtain ⟨hheld, hrefused⟩ := exec_of_answerBytes (exec_serU32 buf v s) hlen
  exact ⟨rfl, hheld, hrefused, hlen, List.take_left, memRead4_concat_be32 buf v⟩

/-- Settles O19: the integers stand one after another behind the buffer, four bytes each. -/
theorem serU32sAppendsEachInOrder : Obligations.SerU32sAppendsEachInOrder := by
  intro buf vs s
  have hlen := length_append_flatMap_be32 buf vs
  obtain ⟨hheld, hrefused⟩ := exec_of_answerBytes (exec_serU32s buf vs s) hlen
  exact ⟨rfl, hheld, hrefused, hlen, fun _ _ => memRead4_append_flatMap_be32 buf, fun _ => rfl⟩

/-- Settles O20: the command answers the text and one zero byte. -/
theorem serTextAppendsOneTerminator : Obligations.SerTextAppendsOneTerminator := by
  intro text s
  obtain ⟨hheld, hrefused⟩ := exec_of_answerBytes (exec_serText text s) List.length_append
  exact ⟨rfl, hheld, hrefused⟩

end Sys2Proof.Machine

/-! SUPPORT. Proofs of the statements about the checksum generator and validator (42_checksum): the trailer is the one
byte that brings the sum to zero (R112, R113), and what CHK_APPEND and CHK_VERIFY answer (R110, R111, R115). -/

namespace Sys2Proof.Machine

open Sys2Proof.Safety

/-! ### The trailer -/

/-- The trailer is the one byte that brings the sum to zero (R113). -/
theorem sum8_concat_eq_zero_iff (b : Bytes) (c : Byte) : sum8 (b ++ [c]) = 0 ↔ c = chk b := by
  rw [sum8_append, sum8_singleton, chk, neg8_eq_neg]
  exact add_eq_zero_iff_eq_neg'

/-- The trailer computed from the sum before it is reduced modulo 256 (R110). -/
theorem chk_eq_ofNat_sub_sum (b : Bytes) : chk b = BitVec.ofNat 8 (256 - (b.map BitVec.toNat).sum % 256) := by
  apply BitVec.eq_of_toNat_eq
  rw [chk, neg8_toNat, sum8_toNat, BitVec.toNat_ofNat]

/-- The 8-bit accumulator over the bytes ends at their sum (R115). -/
theorem foldl_add_zero_eq_sum8 (b : Bytes) : b.foldl (fun acc x => acc + x) 0 = sum8 b := by
  rw [foldl_add_eq_add_sum8, zero_add]

/-! ### The checksum commands -/

theorem exec_chkAppend (buf : Bytes) (s : State) :
    exec (.chkAppend buf) s = .next (s.answerBytes (buf ++ [chk buf])) := rfl

/-- CHK_VERIFY of a buffer that can be held delivers the outcome of the validator's test (R111). -/
theorem exec_chkVerify_of_within {buf : Bytes} {s : State} (h : Within s.cfg buf.length) :
    exec (.chkVerify buf) s = .next (s.deliver ((checksumTest buf).map fun _ => .nothing)) :=
  congrArg Host.Outcome.next (if_pos ((fits_iff_within _ _).2 h))

theorem exec_chkVerify_of_not_within {buf : Bytes} {s : State} (h : ¬ Within s.cfg buf.length) :
    exec (.chkVerify buf) s = .next (s.respond (.refused none)) :=
  congrArg Host.Outcome.next (if_neg (mt (fits_iff_within _ _).1 h))

theorem exec_chkVerify_of_sum8_eq_zero {buf : Bytes} {s : State} (h : Within s.cfg buf.length) (h0 : sum8 buf = 0) :
    exec (.chkVerify buf) s = .next (s.respond (.ok .nothing)) := by
  rw [exec_chkVerify_of_within h, (checksumTest_ok_iff buf).2 h0]
  rfl

theorem exec_chkVerify_of_sum8_ne_zero {buf : Bytes} {s : State} (h : Within s.cfg buf.length) (h0 : sum8 buf ≠ 0) :
    exec (.chkVerify buf) s = .next (s.respond (.err (.checksumError (sum8 buf)) none)) := by
  have htest : checksumTest buf = .error (.checksumError (sum8 buf)) := if_neg h0
  rw [exec_chkVerify_of_within h, htest]
  rfl

/-- CHK_VERIFY accepts exactly the buffers that sum to zero, of those that can be held. -/
theorem answer_chkVerify_ok_iff {buf : Bytes} {s : State} (h : Within s.cfg buf.length) :
    answer (.chkVerify buf) s = some (.ok .nothing) ↔ sum8 buf = 0 := by
  by_cases h0 : sum8 buf = 0
  · exact iff_of_true (answer_of_responses (exec_chkVerify_of_sum8_eq_zero h h0) rfl) h0
  · rw [answer_of_responses (exec_chkVerify_of_sum8_ne_zero h h0) rfl]
    exact iff_of_false nofun h0

/-! ### The statements -/

/-- Settles O12: what CHK_APPEND answers can be held and sums to zero, which is all CHK_VERIFY asks. -/
theorem trailerMakesTheSumZero : Obligations.TrailerMakesTheSumZero := by
  intro b
  have h0 : sum8 (b ++ [chk b]) = 0 := sum8_appendTrailer b
  refine ⟨h0, fun s c hc => ?_⟩
  obtain ⟨hw, rfl⟩ := (answer_bytes_iff (exec_chkAppend b s)).1 hc
  exact (answer_chkVerify_ok_iff hw).2 h0

/-- Settles O13: the trailer is the additive inverse of the sum, and there is only one. -/
theorem trailerIsTheOneZeroSumByte : Obligations.TrailerIsTheOneZeroSumByte :=
  sum8_concat_eq_zero_iff

/-- Settles O14: the accumulator ends at the sum from which both commands work, and an unbounded buffer holds every
sequence. -/
theorem streamingAccumulatorAgrees : Obligations.StreamingAccumulatorAgrees := by
  intro b s hnone
  have hheld (n : Nat) : Within s.cfg n := fun m hm => by simp [hnone] at hm
  rw [foldl_add_zero_eq_sum8]
  exact ⟨(answer_bytes_iff (exec_chkAppend b s)).2 ⟨hheld _, rfl⟩, (answer_chkVerify_ok_iff (hheld _)).symm⟩

/-- Settles O21: the byte appended to the buffer is its trailer, computed from the unreduced sum. -/
theorem chkAppendAppendsTheTrailer : Obligations.ChkAppendAppendsTheTrailer := by
  intro buf s
  simp only [← chk_eq_ofNat_sub_sum]
  have hlen : (buf ++ [chk buf]).length = buf.length + 1 := List.length_append
  obtain ⟨hheld, hrefused⟩ := exec_of_answerBytes (exec_chkAppend buf s) hlen
  exact ⟨rfl, hheld, hrefused, hlen, List.take_left, sum8_appendTrailer buf⟩

/-- Settles O22: a buffer that can be held is answered by its sum, any other is refused. -/
theorem chkVerifyTestsTheSum : Obligations.ChkVerifyTestsTheSum :=
  fun _ _ => ⟨rfl, exec_chkVerify_of_sum8_eq_zero, exec_chkVerify_of_sum8_ne_zero, exec_chkVerify_of_not_within⟩

end Sys2Proof.Machine

/-! SUPPORT. Proofs of the statements about the send commands (43_send): the frame each hands to the transport in one
write (R120 to R124), and the transport's failure passed through (R125). -/

namespace Sys2Proof.Machine

open Sys2Proof.Safety

/-! ### One write of a frame -/

/-- The recorded write and the response together are what a send leaves behind (43_send R120). -/
theorem State.respond_afterWrite (s : State) (f : Bytes) (r : Response) :
    (s.afterWrite f).respond r = afterSend s f s.writeAnswer r := rfl

theorem State.send_of_done {s : State} {f : Bytes} (hw : Within s.cfg f.length) (ha : s.writeAnswer = .done) :
    s.send f = afterSend s f .done (.ok .nothing) := by
  simp only [State.send, (fits_iff_within _ _).2 hw, if_true, ha, State.respond_afterWrite]

theorem State.send_of_failed {s : State} {f : Bytes} {x : FaultCause} {n : Nat} (hw : Within s.cfg f.length)
    (ha : s.writeAnswer = .failed x n) :
    s.send f = afterSend s f (.failed x n) (.err (.transportFault x) none) := by
  simp only [State.send, (fits_iff_within _ _).2 hw, if_true, ha, State.raise, State.respond_afterWrite]

theorem State.send_of_not_within {s : State} {f : Bytes} (h : ¬ Within s.cfg f.length) :
    s.send f = s.respond (.refused none) :=
  if_neg (mt (fits_iff_within _ _).1 h)

/-- Only a finite `BUF_MAX` refuses anything (20_memory R57). -/
theorem bufMax_ne_none_of_not_within {c : Config} {n : Nat} (h : ¬ Within c n) : c.bufMax ≠ none :=
  fun hnone => h fun m hm => by rw [hnone] at hm; cases hm

/-! ### The send commands -/

/-- A command that sends a frame of `n` bytes writes it once and answers what the transport did, and refuses before any
access when `n` bytes cannot be held (43_send R120, R125, 20_memory R57). -/
theorem exec_of_send {i : Instr} {s : State} {f : Bytes} {n : Nat} (h : exec i s = .next (s.send f))
    (hlen : f.length = n) :
    (Within s.cfg n → s.writeAnswer = .done → exec i s = .next (afterSend s f .done (.ok .nothing))) ∧
      (∀ x k, Within s.cfg n → s.writeAnswer = .failed x k →
        exec i s = .next (afterSend s f (.failed x k) (.err (.transportFault x) none))) ∧
      (¬ Within s.cfg n → exec i s = .next (s.respond (.refused none))) := by
  subst hlen
  refine ⟨fun hw ha => ?_, fun x k hw ha => ?_, fun hw => ?_⟩
  · rw [h, State.send_of_done hw ha]
  · rw [h, State.send_of_failed hw ha]
  · rw [h, State.send_of_not_within hw]

theorem exec_sendData (d : Byte) (p : Bytes) (s : State) :
    exec (.sendData d p) s = .next (s.send (closedFrame s.cfg s.addr d p)) := by
  rw [closedFrame_eq_dataFrame]
  rfl

/-- SEND_PING is SEND_DATA of the empty payload (R121). -/
theorem exec_sendPing (d : Byte) (s : State) : exec (.sendPing d) s = exec (.sendData d []) s :=
  congrArg (fun f => Host.Outcome.next (s.send f)) (pingFrame_eq s d)

/-- SEND_U32 is SEND_DATA of the integer's four bytes (R122). -/
theorem exec_sendU32 (d : Byte) (v : U32) (s : State) :
    exec (.sendU32 d v) s = .next (s.send (closedFrame s.cfg s.addr d (be32 v))) :=
  exec_sendData d (be32 v) s

theorem exec_sendU32s (d : Byte) (vs : List U32) (s : State) :
    exec (.sendU32s d vs) s = .next (s.send (closedFrame s.cfg s.addr d (vs.flatMap be32))) := by
  rw [← List.nil_append (vs.flatMap be32), ← appendU32s_eq]
  exact exec_sendData d (appendU32s [] vs) s

/-- SEND_TEXT is SEND_DATA of the terminated text (R124). -/
theorem exec_sendText (d : Byte) (text : Bytes) (s : State) :
    exec (.sendText d text) s = .next (s.send (closedFrame s.cfg s.addr d (text ++ [0x00]))) :=
  exec_sendData d (text ++ [0x00]) s

/-! ### The frame that is sent -/

/-- The LENGTH byte of a frame of `n` bytes is `n mod 256` (30_encoding R62, decision D4). -/
theorem closedFrame_lengthByte {c : Config} {a d : Byte} {p : Bytes} {n : Nat}
    (h : (closedFrame c a d p).length = n) : (closedFrame c a d p)[1]? = some (BitVec.ofNat 8 n) := by
  rw [← h, closedFrame_length]
  rfl

/-- Behind the integer of a SEND_U32 frame only the checksum is left (R122). -/
theorem drop_nine_closedFrame_be32 (c : Config) (a d : Byte) (v : U32) :
    ∃ x, (closedFrame c a d (be32 v)).drop 9 = [x] ∧ (closedFrame c a d (be32 v)).getLast? = some x :=
  ⟨_, rfl, rfl⟩

/-- RECEIVE answers the Message of a built frame that carries at least three payload bytes. -/
theorem answer_receive_of_closedFrame {c : Config} {a d : Byte} {p : Bytes} {peer : State} (t : Duration)
    (hp : 3 ≤ p.length) (hread : peer.readAnswer = closedFrame c a d p) :
    ∃ m, IsMessageOf (closedFrame c a d p) m ∧ answer (.receive t) peer = some (.ok (.message m)) := by
  rw [← hread]
  refine answer_receive_of_sum8_eq_zero t ?_ ?_
  · rw [hread, sum8_closedFrame]
  · rw [hread, closedFrame_length]
    omega

/-- RECEIVE reads a SEND_U32 frame as the integer and the checksum (R122). -/
theorem answer_receive_of_closedFrame_be32 {c : Config} {a d : Byte} {v : U32} {peer : State} (t : Duration)
    (hread : peer.readAnswer = closedFrame c a d (be32 v)) :
    ∃ m x, answer (.receive t) peer = some (.ok (.message m)) ∧ m.msgid = v ∧ m.payload = [x] ∧
      (closedFrame c a d (be32 v)).getLast? = some x := by
  have h3 : 3 ≤ (be32 v).length := by rw [be32_length]; omega
  have hid : memRead4 (closedFrame c a d (be32 v)) 5 = .ok v := memRead4_closedFrame_be32 c a d v []
  obtain ⟨m, ⟨-, -, -, -, hmsgid, hpayload⟩, hm⟩ := answer_receive_of_closedFrame t h3 hread
  obtain ⟨x, hdrop, hlast⟩ := drop_nine_closedFrame_be32 c a d v
  exact ⟨m, x, hm, Except.ok.inj (hmsgid.symm.trans hid), hpayload.trans hdrop, hlast⟩

/-! ### The statements -/

/-- Settles O23: the command sends the closed form of the frame. -/
theorem sendDataWritesItsFrame : Obligations.SendDataWritesItsFrame := by
  intro d p s
  have hlen := closedFrame_length s.cfg s.addr d p
  exact ⟨rfl, hlen, exec_of_send (exec_sendData d p s) hlen⟩

/-- Settles O24: SEND_PING is SEND_DATA of the empty payload, whose closed form is the six-byte frame. -/
theorem sendPingWritesTheSixByteFrame : Obligations.SendPingWritesTheSixByteFrame := by
  intro d s
  have hping := exec_sendPing d s
  obtain ⟨hdone, hfailed, hrefused⟩ :=
    exec_of_send (hping.trans (exec_sendData d [] s)) (closedFrame_length s.cfg s.addr d [])
  exact ⟨rfl, hdone, hfailed, hrefused, hping⟩

/-- Settles O25: the payload of the frame is the integer's four bytes, which the receiver reads as the message id, and
what it reads behind them is the checksum. -/
theorem sendU32WritesATenByteFrame : Obligations.SendU32WritesATenByteFrame := by
  intro d v s
  have hlen : (closedFrame s.cfg s.addr d (be32 v)).length = 10 := closedFrame_length _ _ _ _
  obtain ⟨hdone, hfailed, hrefused⟩ := exec_of_send (exec_sendU32 d v s) hlen
  exact ⟨rfl, hlen, closedFrame_lengthByte hlen, hdone, hfailed, hrefused,
    fun _ t => answer_receive_of_closedFrame_be32 t⟩

/-- Settles O26: the payload of the frame is the integers, four bytes each. -/
theorem sendU32sWritesEveryInteger : Obligations.SendU32sWritesEveryInteger := by
  intro d vs s
  have hlen : (closedFrame s.cfg s.addr d (vs.flatMap be32)).length = 4 * vs.length + 6 := by
    rw [closedFrame_length, flatMap_be32_length]
  exact ⟨rfl, hlen, closedFrame_lengthByte hlen, exec_of_send (exec_sendU32s d vs s) hlen⟩

/-- Settles O27: the payload of the frame is the text and one zero byte. -/
theorem sendTextWritesATerminatedPayload : Obligations.SendTextWritesATerminatedPayload := by
  intro d text s
  have hlen : (closedFrame s.cfg s.addr d (text ++ [0x00])).length = text.length + 7 := by
    rw [closedFrame_length, List.length_append, List.length_singleton]
  exact ⟨rfl, hlen, closedFrame_lengthByte hlen, exec_of_send (exec_sendText d text s) hlen⟩

/-- Settles O28: a send is one `State.send` of a frame, which writes it once or refuses for a finite capacity. -/
theorem failedWriteIsPassedThrough : Obligations.FailedWriteIsPassedThrough := by
  intro i s x n hs ha
  obtain ⟨dst, p, hsend⟩ := exec_eq_send hs
  obtain ⟨-, hfailed, hrefused⟩ := exec_of_send (hsend s) rfl
  by_cases hw : Within s.cfg (dataFrame s dst p).length
  · exact ⟨_, hfailed x n hw ha, rfl, rfl, rfl, rfl, .inl ⟨_, rfl, rfl⟩⟩
  · exact ⟨_, hrefused hw, rfl, rfl, rfl, rfl, .inr ⟨rfl, bufMax_ne_none_of_not_within hw, rfl⟩⟩

end Sys2Proof.Machine

/-! SUPPORT. Proofs of the statements about the receive commands and the cache (44_receive): what READ_RAW, ACCUMULATE,
RECEIVE and RD_LAST answer (R130 to R133), what RECEIVE gives for a built frame (R134), and the three read commands
compared (R135). -/

namespace Sys2Proof.Machine

open Sys2Proof.Safety

/-! ### The tests of the read commands -/

theorem checksumTest_of_sum8_ne_zero {r : Bytes} (h : sum8 r ≠ 0) :
    checksumTest r = .error (.checksumError (sum8 r)) :=
  if_neg h

theorem rawTest_of_length_lt {r : Bytes} (h : r.length < 6) : rawTest r = .error .lengthError := if_pos h

/-- On a buffer long enough for a frame READ_RAW's test is the validator's (R130). -/
theorem rawTest_of_le_length {r : Bytes} (h : 6 ≤ r.length) : rawTest r = checksumTest r := if_neg (Nat.not_lt.2 h)

theorem receiveTest_nil : receiveTest [] = .error .timeoutError := rfl

theorem receiveTest_of_sum8_ne_zero {r : Bytes} (h : sum8 r ≠ 0) :
    receiveTest r = .error (.checksumError (sum8 r)) := by
  rw [receiveTest, checksumTest_of_sum8_ne_zero h]

/-- A zero-sum buffer too short for a frame (decision D6). -/
theorem receiveTest_of_length_lt_six {r : Bytes} (h0 : sum8 r = 0) (h1 : 1 ≤ r.length) (h6 : r.length < 6) :
    receiveTest r = .error .lengthError := by
  have hpos : r.length ≠ 0 := by omega
  simp only [receiveTest, (checksumTest_ok_iff r).2 h0, hpos, if_false, minFrame_eq, h6, if_true]

/-- A zero-sum buffer long enough for a frame goes to the decoder (R132). -/
theorem receiveTest_of_six_le_length {r : Bytes} (h0 : sum8 r = 0) (h6 : 6 ≤ r.length) :
    receiveTest r = decodeMessage r := by
  have hpos : r.length ≠ 0 := by omega
  have hnot : ¬ r.length < 6 := by omega
  simp only [receiveTest, (checksumTest_ok_iff r).2 h0, hpos, if_false, minFrame_eq, hnot]

/-- A zero-sum buffer long enough for a frame and too short for a message id (decision D7). -/
theorem receiveTest_of_length_lt_nine {r : Bytes} (h0 : sum8 r = 0) (h6 : 6 ≤ r.length) (h9 : r.length < 9) :
    receiveTest r = .error .decodeError := by
  rw [receiveTest_of_six_le_length h0 h6]
  rcases decodeMessage_cases r with ⟨-, e⟩ | ⟨m, ⟨hlen, -⟩, -⟩
  · exact e
  · omega

/-- RECEIVE's tests pass exactly the zero-sum buffers that have a Message, with that Message (R132). -/
theorem receiveTest_ok_iff {r : Bytes} {m : Message} : receiveTest r = .ok m ↔ sum8 r = 0 ∧ IsMessageOf r m := by
  constructor
  · intro h
    rcases receiveTest_cases r with ⟨-, e⟩ | ⟨-, e⟩ | ⟨-, -, -, e⟩ | ⟨-, -, -, e⟩ | ⟨h0, m', hm, e⟩ <;>
      cases e.symm.trans h
    exact ⟨h0, hm⟩
  · rintro ⟨h0, hm⟩
    have ⟨h9, _⟩ := hm
    rw [receiveTest_of_six_le_length h0 (by omega)]
    rcases decodeMessage_cases r with ⟨hlt, -⟩ | ⟨m', hm', e⟩
    · omega
    · rw [e, isMessageOf_unique hm' hm]

/-- The validator's test comes first: its error is RECEIVE's, and no later test raises a ChecksumError (R158). -/
theorem receiveTest_checksumError_iff {r : Bytes} {e : Byte} :
    receiveTest r = .error (.checksumError e) ↔ checksumTest r = .error (.checksumError e) := by
  by_cases h0 : sum8 r = 0
  · rw [(checksumTest_ok_iff r).2 h0]
    refine iff_of_false (fun h => ?_) nofun
    rcases receiveTest_cases r with ⟨hne, -⟩ | ⟨-, e⟩ | ⟨-, -, -, e⟩ | ⟨-, -, -, e⟩ | ⟨-, m, -, e⟩
    · exact hne h0
    all_goals cases e.symm.trans h
  · rw [receiveTest_of_sum8_ne_zero h0, checksumTest_of_sum8_ne_zero h0]
    simp

/-! ### The commands -/

/-- The recorded read and the response together are what a read command leaves behind (R130). -/
theorem State.respond_afterRead (s : State) (t : Duration) (r : Response) :
    (s.afterRead t).respond r = afterReceive s t r := rfl

/-- READ_RAW delivers the outcome of its tests (R130). -/
theorem exec_readRaw (t : Duration) (s : State) : exec (.readRaw t) s =
    .next ((s.afterRead t).deliver ((rawTest s.readAnswer).map fun _ => .bytes s.readAnswer)) := rfl

theorem exec_readRaw_of_error {t : Duration} {s : State} {e : Error} (h : rawTest s.readAnswer = .error e) :
    exec (.readRaw t) s = .next (afterReceive s t (.err e none)) := by
  rw [exec_readRaw, h]
  rfl

theorem exec_readRaw_of_ok {t : Duration} {s : State} (h : rawTest s.readAnswer = .ok ()) :
    exec (.readRaw t) s = .next (afterReceive s t (.ok (.bytes s.readAnswer))) := by
  rw [exec_readRaw, h]
  rfl

theorem exec_readRaw_of_length_lt (t : Duration) {s : State} (h : s.readAnswer.length < 6) :
    exec (.readRaw t) s = .next (afterReceive s t (.err .lengthError none)) :=
  exec_readRaw_of_error (rawTest_of_length_lt h)

theorem exec_readRaw_of_sum8_ne_zero (t : Duration) {s : State} (h6 : 6 ≤ s.readAnswer.length)
    (h0 : sum8 s.readAnswer ≠ 0) :
    exec (.readRaw t) s = .next (afterReceive s t (.err (.checksumError (sum8 s.readAnswer)) none)) :=
  exec_readRaw_of_error ((rawTest_of_le_length h6).trans (checksumTest_of_sum8_ne_zero h0))

theorem exec_readRaw_of_sum8_eq_zero (t : Duration) {s : State} (h6 : 6 ≤ s.readAnswer.length)
    (h0 : sum8 s.readAnswer = 0) :
    exec (.readRaw t) s = .next (afterReceive s t (.ok (.bytes s.readAnswer))) :=
  exec_readRaw_of_ok ((rawTest_of_le_length h6).trans ((checksumTest_ok_iff _).2 h0))

theorem exec_accumulate_of_sum8_eq_zero (t : Duration) {buf : Bytes} {s : State}
    (hw : Within s.cfg (buf.length + s.readAnswer.length)) (h0 : sum8 s.readAnswer = 0) :
    exec (.accumulate buf t) s = .next (afterReceive s t (.ok (.bytes (buf ++ s.readAnswer)))) := by
  simp only [exec, execAccumulate, (fits_iff_within _ _).2 hw, if_true, (checksumTest_ok_iff _).2 h0, append_eq,
    State.respond_afterRead]

theorem exec_accumulate_of_sum8_ne_zero (t : Duration) {buf : Bytes} {s : State}
    (hw : Within s.cfg (buf.length + s.readAnswer.length)) (h0 : sum8 s.readAnswer ≠ 0) :
    exec (.accumulate buf t) s =
      .next (afterReceive s t (.err (.checksumError (sum8 s.readAnswer)) (some (buf ++ s.readAnswer)))) := by
  simp only [exec, execAccumulate, (fits_iff_within _ _).2 hw, if_true, checksumTest_of_sum8_ne_zero h0, append_eq,
    State.respond_afterRead]

/-- The bytes read are lost and the caller's buffer is returned as it was (20_memory R57). -/
theorem exec_accumulate_of_not_within (t : Duration) {buf : Bytes} {s : State}
    (hw : ¬ Within s.cfg (buf.length + s.readAnswer.length)) :
    exec (.accumulate buf t) s = .next (afterReceive s t (.refused (some buf))) :=
  congrArg Host.Outcome.next (if_neg (mt (fits_iff_within _ _).1 hw))

theorem exec_receive_of_error {t : Duration} {s : State} {e : Error} (h : receiveTest s.readAnswer = .error e) :
    exec (.receive t) s = .next (afterReceive s t (.err e none)) := by
  simp only [exec, execReceive, h, State.raise, State.respond_afterRead]

theorem exec_receive_of_ok {t : Duration} {s : State} {m : Message} (h : receiveTest s.readAnswer = .ok m) :
    exec (.receive t) s = .next ((afterReceive s t (.ok (.message m))).cache m) := by
  simp only [exec, execReceive, h]
  rfl

theorem exec_rdLast_of_lastValid {s : State} (hv : s.lastValid = true) :
    exec .rdLast s = .next (s.respond (.ok (.message s.last))) := by
  rcases exec_rdLast_cases s with ⟨hv', -⟩ | ⟨-, e⟩
  · simp [hv] at hv'
  · exact e

/-! ### The answers -/

theorem answer_of_afterReceive {i : Instr} {s : State} {t : Duration} {r : Response}
    (h : exec i s = .next (afterReceive s t r)) : answer i s = some r :=
  answer_of_responses h rfl

theorem answer_receive_of_error {t : Duration} {s : State} {e : Error} (h : receiveTest s.readAnswer = .error e) :
    answer (.receive t) s = some (.err e none) :=
  answer_of_afterReceive (exec_receive_of_error h)

theorem answer_receive_of_ok {t : Duration} {s : State} {m : Message} (h : receiveTest s.readAnswer = .ok m) :
    answer (.receive t) s = some (.ok (.message m)) :=
  answer_of_responses (exec_receive_of_ok h) rfl

theorem answer_receive_err_iff {t : Duration} {s : State} {e : Error} :
    answer (.receive t) s = some (.err e none) ↔ receiveTest s.readAnswer = .error e := by
  cases h : receiveTest s.readAnswer with
  | error e' => simp [answer_receive_of_error h]
  | ok m => simp [answer_receive_of_ok h]

theorem answer_receive_ok_iff {t : Duration} {s : State} {m : Message} :
    answer (.receive t) s = some (.ok (.message m)) ↔ receiveTest s.readAnswer = .ok m := by
  cases h : receiveTest s.readAnswer with
  | error e => simp [answer_receive_of_error h]
  | ok m' => simp [answer_receive_of_ok h]

/-- ACCUMULATE answers Ok exactly when the new bytes sum to zero and the extended buffer can be held (R131). -/
theorem answer_accumulate_ok_iff {buf b : Bytes} {t : Duration} {s : State} :
    answer (.accumulate buf t) s = some (.ok (.bytes b)) ↔
      Within s.cfg (buf.length + s.readAnswer.length) ∧ sum8 s.readAnswer = 0 ∧ buf ++ s.readAnswer = b := by
  by_cases hw : Within s.cfg (buf.length + s.readAnswer.length)
  · by_cases h0 : sum8 s.readAnswer = 0
    · simp [answer_of_afterReceive (exec_accumulate_of_sum8_eq_zero t hw h0), hw, h0]
    · rw [answer_of_afterReceive (exec_accumulate_of_sum8_ne_zero t hw h0)]
      exact iff_of_false nofun fun ⟨_, h, _⟩ => h0 h
  · rw [answer_of_afterReceive (exec_accumulate_of_not_within t hw)]
    exact iff_of_false nofun fun ⟨h, _⟩ => hw h

/-- ACCUMULATE into a buffer with room raises exactly the validator's error on the new bytes (R131). -/
theorem answer_accumulate_err_iff {buf : Bytes} {t : Duration} {s : State} {e : Error}
    (hw : Within s.cfg (buf.length + s.readAnswer.length)) :
    answer (.accumulate buf t) s = some (.err e (some (buf ++ s.readAnswer))) ↔
      checksumTest s.readAnswer = .error e := by
  by_cases h0 : sum8 s.readAnswer = 0
  · simp [answer_of_afterReceive (exec_accumulate_of_sum8_eq_zero t hw h0), (checksumTest_ok_iff _).2 h0]
  · simp [answer_of_afterReceive (exec_accumulate_of_sum8_ne_zero t hw h0), checksumTest_of_sum8_ne_zero h0]

/-- A fresh buffer has room for every read (20_memory R57). -/
theorem State.within_nil_append_readAnswer (s : State) :
    Within s.cfg (([] : Bytes).length + s.readAnswer.length) := by
  rw [List.length_nil, Nat.zero_add]
  exact s.readAnswer_within

/-- RECEIVE never decodes a buffer shorter than a frame (R135). -/
theorem exists_answer_receive_err_of_length_lt_six (t : Duration) {s : State} (h : s.readAnswer.length < 6) :
    ∃ e, answer (.receive t) s = some (.err e none) := by
  cases htest : receiveTest s.readAnswer with
  | error e => exact ⟨e, answer_receive_of_error htest⟩
  | ok m =>
    obtain ⟨-, h9, -⟩ := receiveTest_ok_iff.1 htest
    omega

/-! ### The Message of a built frame -/

/-- Behind the header of a built frame stand the payload and the trailer (40_frame_build R90). -/
theorem closedFrame_eq_header_append (c : Config) (a d : Byte) (p : Bytes) :
    ∃ x, closedFrame c a d p = [c.start, BitVec.ofNat 8 (p.length + 6), a, d, c.start2] ++ (p ++ [x]) :=
  ⟨_, List.append_assoc _ _ _⟩

/-- The receiver reads the first four bytes behind a header as the message id and the rest as the payload, whatever
they were to the sender (30_encoding R69). -/
theorem isMessageOf_header_append (x0 x1 a d x4 b0 b1 b2 b3 : Byte) (rest : Bytes) :
    IsMessageOf ([x0, x1, a, d, x4] ++ b0 :: b1 :: b2 :: b3 :: rest)
      { src := a, dst := d, length := rest.length + 9, msgid := unBe32 b0 b1 b2 b3, payload := rest } :=
  ⟨by simp, rfl, rfl, by simp, memRead4_append [x0, x1, a, d, x4] rest b0 b1 b2 b3, rfl⟩

/-- RECEIVE answers a zero-sum buffer by position: its header, the four bytes behind it, and the rest (R132). -/
theorem answer_receive_of_header_append {s : State} {x0 x1 a d x4 b0 b1 b2 b3 : Byte} {body rest : Bytes}
    (t : Duration) (h0 : sum8 s.readAnswer = 0) (hread : s.readAnswer = [x0, x1, a, d, x4] ++ body)
    (hbody : body = b0 :: b1 :: b2 :: b3 :: rest) :
    answer (.receive t) s = some (.ok (.message
      { src := a, dst := d, length := rest.length + 9, msgid := unBe32 b0 b1 b2 b3, payload := rest })) := by
  refine answer_receive_ok_iff.2 (receiveTest_ok_iff.2 ⟨h0, ?_⟩)
  rw [hread, hbody]
  exact isMessageOf_header_append x0 x1 a d x4 b0 b1 b2 b3 rest

section

variable {c : Config} {a d : Byte} {p : Bytes} {s : State}

theorem sum8_eq_zero_of_closedFrame {r : Bytes} (h : r = closedFrame c a d p) : sum8 r = 0 := by
  rw [h, sum8_closedFrame]

/-- A frame of at most two payload bytes ends before its message id would (decision D7). -/
theorem answer_receive_of_closedFrame_le_two (t : Duration) (h2 : p.length ≤ 2)
    (hread : s.readAnswer = closedFrame c a d p) : answer (.receive t) s = some (.err .decodeError none) := by
  have hlen : s.readAnswer.length = p.length + 6 := by rw [hread, closedFrame_length]
  exact answer_receive_of_error
    (receiveTest_of_length_lt_nine (sum8_eq_zero_of_closedFrame hread) (by omega) (by omega))

/-- The trailer of a frame of three payload bytes is read as the low byte of the message id (R134). -/
theorem answer_receive_of_closedFrame_three (t : Duration) {p0 p1 p2 : Byte}
    (hread : s.readAnswer = closedFrame c a d [p0, p1, p2]) :
    ∃ x, (closedFrame c a d [p0, p1, p2])[8]? = some x ∧ answer (.receive t) s = some (.ok (.message
      { src := a, dst := d, length := 9, msgid := unBe32 p0 p1 p2 x, payload := [] })) := by
  have h0 := sum8_eq_zero_of_closedFrame hread
  obtain ⟨x, hframe⟩ := closedFrame_eq_header_append c a d [p0, p1, p2]
  exact ⟨x, congrArg (·[8]?) hframe, answer_receive_of_header_append t h0 (hread.trans hframe) rfl⟩

/-- The trailer of a frame of four or more payload bytes is read as the last byte of the payload (R134). -/
theorem answer_receive_of_closedFrame_four_le (t : Duration) {p0 p1 p2 p3 : Byte} {rest : Bytes}
    (hread : s.readAnswer = closedFrame c a d (p0 :: p1 :: p2 :: p3 :: rest)) :
    ∃ x, (closedFrame c a d (p0 :: p1 :: p2 :: p3 :: rest)).getLast? = some x ∧
      answer (.receive t) s = some (.ok (.message
        { src := a, dst := d, length := (p0 :: p1 :: p2 :: p3 :: rest).length + 6, msgid := unBe32 p0 p1 p2 p3,
          payload := rest ++ [x] })) := by
  have h0 := sum8_eq_zero_of_closedFrame hread
  obtain ⟨x, hframe⟩ := closedFrame_eq_header_append c a d (p0 :: p1 :: p2 :: p3 :: rest)
  have hanswer := answer_receive_of_header_append (rest := rest ++ [x]) t h0 (hread.trans hframe) rfl
  refine ⟨x, ?_, ?_⟩
  · rw [hframe, ← List.append_assoc, List.getLast?_concat]
  · rw [hanswer, List.length_append]
    rfl

/-- The sender's payload is the message id's bytes and the received payload without the trailer (R134). -/
theorem eq_be32_append_of_answer_receive {t : Duration} {m : Message} (h4 : 4 ≤ p.length)
    (hread : s.readAnswer = closedFrame c a d p) (hm : answer (.receive t) s = some (.ok (.message m))) :
    p = be32 m.msgid ++ m.payload.dropLast := by
  match p, h4 with
  | p0 :: p1 :: p2 :: p3 :: rest, _ =>
    obtain ⟨x, -, hanswer⟩ := answer_receive_of_closedFrame_four_le t hread
    cases hanswer.symm.trans hm
    rw [be32_unBe32, List.dropLast_concat]
    rfl

end

/-! ### The statements -/

/-- Settles O31: the answer fixes the outcome of RECEIVE's tests, and that outcome the next state. -/
theorem receiveDecodesOneFrame : Obligations.ReceiveDecodesOneFrame := by
  intro t s
  refine ⟨rfl, fun h0 => ?_, fun hnil => ?_, fun h0 h1 h6 => ?_, fun h0 h6 h9 => ?_, fun h0 h9 => ?_⟩
  · exact exec_receive_of_error (receiveTest_of_sum8_ne_zero h0)
  · exact exec_receive_of_error (hnil ▸ receiveTest_nil)
  · exact exec_receive_of_error (receiveTest_of_length_lt_six h0 h1 h6)
  · exact exec_receive_of_error (receiveTest_of_length_lt_nine h0 h6 h9)
  · obtain ⟨m, hm, -⟩ := answer_receive_of_sum8_eq_zero t h0 h9
    exact ⟨m, hm, exec_receive_of_ok (receiveTest_ok_iff.2 ⟨h0, hm⟩)⟩

/-- Settles O34: the three commands apply their tests to the same bytes, RECEIVE and ACCUMULATE the sum first, READ_RAW
the length first. -/
theorem readCommandsCompared : Obligations.ReadCommandsCompared := by
  intro t s
  refine ⟨fun m hm => ?_, fun h6 h8 h0 => ⟨?_, ?_⟩, fun e => ?_, fun _ h5 h0 => ⟨?_, ?_⟩, fun hnil => ⟨?_, ?_, ?_⟩,
    fun _ => exists_answer_receive_err_of_length_lt_six t⟩
  · obtain ⟨h0, h9, -⟩ := receiveTest_ok_iff.1 (answer_receive_ok_iff.1 hm)
    exact answer_of_afterReceive (exec_readRaw_of_sum8_eq_zero t (by omega) h0)
  · exact answer_of_afterReceive (exec_readRaw_of_sum8_eq_zero t h6 h0)
  · exact answer_receive_of_error (receiveTest_of_length_lt_nine h0 h6 (by omega))
  · rw [answer_receive_err_iff, receiveTest_checksumError_iff]
    exact (answer_accumulate_err_iff s.within_nil_append_readAnswer).symm
  · exact answer_of_afterReceive (exec_readRaw_of_length_lt t (by omega))
  · exact answer_receive_of_error (receiveTest_of_sum8_ne_zero h0)
  · exact answer_of_afterReceive (exec_readRaw_of_length_lt t (by simp [hnil]))
  · exact answer_receive_of_error (hnil ▸ receiveTest_nil)
  · have h0 : sum8 s.readAnswer = 0 := hnil ▸ sum8_nil
    exact answer_accumulate_ok_iff.2 ⟨s.within_nil_append_readAnswer, h0, hnil⟩

/-- Settles O35: the frame is a header, the payload and the trailer, and RECEIVE reads the four bytes behind the header
as the message id. -/
theorem decodeOfABuiltFrame : Obligations.DecodeOfABuiltFrame := by
  intro peer s d p t f hread
  refine ⟨sum8_closedFrame _ _ _ _, fun h2 => answer_receive_of_closedFrame_le_two t h2 hread, ?_, ?_,
    fun m h4 => eq_be32_append_of_answer_receive h4 hread⟩
  · rintro p0 p1 p2 rfl
    exact answer_receive_of_closedFrame_three t hread
  · rintro p0 p1 p2 p3 rest rfl
    exact answer_receive_of_closedFrame_four_le t hread

/-- Settles O36: an Ok answer is the buffer with zero-sum bytes appended. -/
theorem accumulationKeepsTheSum : Obligations.AccumulationKeepsTheSum := by
  intro buf b t s h
  obtain ⟨-, h0, rfl⟩ := answer_accumulate_ok_iff.1 h
  exact ⟨by rw [sum8_append, h0, add_zero], List.prefix_append _ _⟩

/-- Settles O29: the answer's length and sum fix the outcome of READ_RAW's tests. -/
theorem readRawTestsLengthThenSum : Obligations.ReadRawTestsLengthThenSum :=
  fun t _ => ⟨rfl, exec_readRaw_of_length_lt t, exec_readRaw_of_sum8_ne_zero t, exec_readRaw_of_sum8_eq_zero t⟩

/-- Settles O30: the capacity and the sum of the new bytes fix the outcome. -/
theorem accumulateAppendsThenTestsTheNewBytes : Obligations.AccumulateAppendsThenTestsTheNewBytes :=
  fun _ t _ => ⟨rfl, exec_accumulate_of_sum8_eq_zero t, exec_accumulate_of_sum8_ne_zero t,
    exec_accumulate_of_not_within t⟩

/-- Settles O32: LAST_VALID fixes the answer. -/
theorem rdLastAnswersTheCache : Obligations.RdLastAnswersTheCache :=
  fun _ => ⟨rfl, exec_rdLast_unwritten, exec_rdLast_of_lastValid⟩

end Sys2Proof.Machine

/-! SUPPORT. Proofs of the statements about outcomes and errors (60_exceptions): every command ends in one outcome that
its row of the table allows (R150), a ChecksumError's sum is never 0 (R153), and an error writes no state (R159). -/

namespace Sys2Proof.Machine

open Sys2Proof.Safety

/-! ### The outcome of a command -/

/-- The buffer an error response of the command carries: ACCUMULATE's is the extended one (decision D8), every other
command's error delivers nothing (R159). -/
def returnedOnError (s : State) : Instr → Option Bytes
  | .accumulate buf _ => some (buf ++ s.readAnswer)
  | _ => none

theorem returnedOnError_eq_none {s : State} {i : Instr} (h : ∀ buf d, i ≠ .accumulate buf d) :
    returnedOnError s i = none := by
  unfold returnedOnError
  split
  next buf d => exact absurd rfl (h buf d)
  next => rfl

/-- What 60_exceptions says of the response `r` a command gives in `s`, besides that each command can succeed: an error
stands in the command's row (R150), its sum if it carries one is not 0 (R153) and its buffer is fixed by the command
(R159); a refusal stands in the row and needs a finite `BUF_MAX` (20_memory R57). -/
def IsOutcomeOf (i : Instr) (s : State) : Response → Prop
  | .ok _ => True
  | .err e b => errorCode e ∈ mayAnswer i ∧ e ≠ .checksumError 0 ∧ b = returnedOnError s i
  | .refused _ => 6 ∈ mayAnswer i ∧ s.cfg.bufMax ≠ none

/-- A ChecksumError raised over bytes that do not sum to zero carries a nonzero sum (R153). -/
theorem checksumError_sum8_ne {b : Bytes} (h : sum8 b ≠ 0) : Error.checksumError (sum8 b) ≠ .checksumError 0 :=
  fun he => h (Error.checksumError.inj he)

theorem answerBytes_isOutcomeOf {i : Instr} (h6 : 6 ∈ mayAnswer i) (s : State) (b : Bytes) :
    ∃ r, (s.answerBytes b).responses = s.responses ++ [r] ∧ IsOutcomeOf i s r := by
  rcases s.answerBytes_cases b with ⟨-, e⟩ | ⟨hw, e⟩ <;> rw [e]
  · exact ⟨_, rfl, trivial⟩
  · exact ⟨_, rfl, h6, bufMax_ne_none_of_not_within hw⟩

theorem mayAnswer_of_isSend {i : Instr} (hs : isSend i = true) : mayAnswer i = [0, 5, 6] := by
  cases i <;> simp only [isSend, Bool.false_eq_true] at hs <;> rfl

/-- A send succeeds, passes the transport's failure through, or is refused (43_send R125). -/
theorem send_isOutcomeOf {i : Instr} (hs : isSend i = true) (s : State) (f : Bytes) :
    ∃ r, (s.send f).responses = s.responses ++ [r] ∧ IsOutcomeOf i s r := by
  have hrow := mayAnswer_of_isSend hs
  have hret : returnedOnError s i = none := returnedOnError_eq_none (by rintro buf d rfl; cases hs)
  rcases s.send_cases f with ⟨-, -, e⟩ | ⟨-, x, n, -, e⟩ | ⟨hw, e⟩ <;> rw [e]
  · exact ⟨_, rfl, trivial⟩
  · exact ⟨_, rfl, by simp [hrow, errorCode], nofun, hret.symm⟩
  · exact ⟨_, rfl, by simp [hrow], bufMax_ne_none_of_not_within hw⟩

theorem chkVerify_isOutcomeOf {buf : Bytes} {s t : State} (h : exec (.chkVerify buf) s = .next t) :
    ∃ r, t.responses = s.responses ++ [r] ∧ IsOutcomeOf (.chkVerify buf) s r := by
  by_cases hw : Within s.cfg buf.length
  · by_cases h0 : sum8 buf = 0
    · cases (exec_chkVerify_of_sum8_eq_zero hw h0).symm.trans h
      exact ⟨_, rfl, trivial⟩
    · cases (exec_chkVerify_of_sum8_ne_zero hw h0).symm.trans h
      exact ⟨_, rfl, by simp [errorCode, mayAnswer], checksumError_sum8_ne h0, rfl⟩
  · cases (exec_chkVerify_of_not_within hw).symm.trans h
    exact ⟨_, rfl, by simp [mayAnswer], bufMax_ne_none_of_not_within hw⟩

theorem readRaw_isOutcomeOf {d : Duration} {s t : State} (h : exec (.readRaw d) s = .next t) :
    ∃ r, t.responses = s.responses ++ [r] ∧ IsOutcomeOf (.readRaw d) s r := by
  rcases rawTest_cases s.readAnswer with ⟨-, e⟩ | ⟨-, h0, e⟩ | ⟨-, -, e⟩
  · cases (exec_readRaw_of_error e).symm.trans h
    exact ⟨_, rfl, by simp [errorCode, mayAnswer], nofun, rfl⟩
  · cases (exec_readRaw_of_error e).symm.trans h
    exact ⟨_, rfl, by simp [errorCode, mayAnswer], checksumError_sum8_ne h0, rfl⟩
  · cases (exec_readRaw_of_ok e).symm.trans h
    exact ⟨_, rfl, trivial⟩

theorem accumulate_isOutcomeOf {buf : Bytes} {d : Duration} {s t : State}
    (h : exec (.accumulate buf d) s = .next t) :
    ∃ r, t.responses = s.responses ++ [r] ∧ IsOutcomeOf (.accumulate buf d) s r := by
  by_cases hw : Within s.cfg (buf.length + s.readAnswer.length)
  · by_cases h0 : sum8 s.readAnswer = 0
    · cases (exec_accumulate_of_sum8_eq_zero d hw h0).symm.trans h
      exact ⟨_, rfl, trivial⟩
    · cases (exec_accumulate_of_sum8_ne_zero d hw h0).symm.trans h
      exact ⟨_, rfl, by simp [errorCode, mayAnswer], checksumError_sum8_ne h0, rfl⟩
  · cases (exec_accumulate_of_not_within d hw).symm.trans h
    exact ⟨_, rfl, by simp [mayAnswer], bufMax_ne_none_of_not_within hw⟩

/-- RECEIVE's tests raise every error but the transport's, and a ChecksumError only over a nonzero sum (R158). -/
theorem receiveTest_error {r : Bytes} {e : Error} (h : receiveTest r = .error e) :
    errorCode e ∈ [1, 2, 3, 4] ∧ e ≠ .checksumError 0 := by
  rcases receiveTest_cases r with ⟨h0, he⟩ | ⟨-, he⟩ | ⟨-, -, -, he⟩ | ⟨-, -, -, he⟩ | ⟨-, m, -, he⟩ <;>
    cases he.symm.trans h
  · exact ⟨by simp [errorCode], checksumError_sum8_ne h0⟩
  all_goals exact ⟨by simp [errorCode], nofun⟩

theorem receive_isOutcomeOf {d : Duration} {s t : State} (h : exec (.receive d) s = .next t) :
    ∃ r, t.responses = s.responses ++ [r] ∧ IsOutcomeOf (.receive d) s r := by
  cases htest : receiveTest s.readAnswer with
  | ok m =>
    cases (exec_receive_of_ok htest).symm.trans h
    exact ⟨_, rfl, trivial⟩
  | error e =>
    obtain ⟨hcode, hsum⟩ := receiveTest_error htest
    cases (exec_receive_of_error htest).symm.trans h
    exact ⟨_, rfl, List.mem_cons_of_mem 0 hcode, hsum, rfl⟩

theorem rdLast_isOutcomeOf {s t : State} (h : exec .rdLast s = .next t) :
    ∃ r, t.responses = s.responses ++ [r] ∧ IsOutcomeOf .rdLast s r := by
  rcases exec_rdLast_cases s with ⟨-, e⟩ | ⟨-, e⟩ <;> cases e.symm.trans h <;> exact ⟨_, rfl, trivial⟩

/-- Every command gives one response, an outcome its row allows (R150). -/
theorem exec_isOutcomeOf {i : Instr} {s t : State} (h : exec i s = .next t) :
    ∃ r, t.responses = s.responses ++ [r] ∧ IsOutcomeOf i s r := by
  cases hs : isSend i with
  | true =>
    obtain ⟨dst, p, rfl⟩ := exec_send hs h
    exact send_isOutcomeOf hs s _
  | false =>
    cases i <;> simp only [isSend, Bool.true_eq_false] at hs
    case chkVerify => exact chkVerify_isOutcomeOf h
    case readRaw => exact readRaw_isOutcomeOf h
    case accumulate => exact accumulate_isOutcomeOf h
    case receive => exact receive_isOutcomeOf h
    case rdLast => exact rdLast_isOutcomeOf h
    all_goals
      cases h
      exact answerBytes_isOutcomeOf (by simp [mayAnswer]) s _

/-! ### What an outcome says of its response -/

theorem zero_mem_mayAnswer (i : Instr) : 0 ∈ mayAnswer i := by
  cases i <;> simp [mayAnswer]

theorem statusCode_mem_mayAnswer {i : Instr} {s : State} {r : Response} (h : IsOutcomeOf i s r) :
    statusCode r ∈ mayAnswer i := by
  cases r with
  | ok => exact zero_mem_mayAnswer i
  | err => exact h.1
  | refused => exact h.1

theorem checksumError_ne_zero {i : Instr} {s : State} {e : Byte} {b : Option Bytes}
    (h : IsOutcomeOf i s (.err (.checksumError e) b)) : e ≠ 0 := by
  obtain ⟨-, hne, -⟩ := h
  exact fun he => hne (congrArg Error.checksumError he)

theorem errorCode_ne_six (e : Error) : errorCode e ≠ 6 := by
  cases e <;> simp [errorCode]

/-- The status 6 is a refusal's alone, and only a finite `BUF_MAX` refuses (20_memory R57). -/
theorem bufMax_ne_none_of_statusCode_eq_six {i : Instr} {s : State} {r : Response} (h : IsOutcomeOf i s r)
    (h6 : statusCode r = 6) : s.cfg.bufMax ≠ none := by
  cases r with
  | ok => cases h6
  | err e => exact absurd h6 (errorCode_ne_six e)
  | refused => exact h.2

/-- A command adds no ChecksumError over a zero sum to the responses. -/
theorem exec_keeps_checksumErrorsCarryNonzero {i : Instr} {s t : State} (hinv : ChecksumErrorsCarryNonzero s)
    (h : exec i s = .next t) : ChecksumErrorsCarryNonzero t := by
  obtain ⟨r, hresp, hr⟩ := exec_isOutcomeOf h
  intro e b hmem
  rw [hresp, List.mem_append, List.mem_singleton] at hmem
  rcases hmem with hold | rfl
  · exact hinv e b hold
  · exact checksumError_ne_zero hr

/-- A command that answers an error leaves the cache as it was: only a successful RECEIVE writes it (R159, R23). -/
theorem exec_err_keeps_cache {i : Instr} {s t : State} {e : Error} {b : Option Bytes} (h : exec i s = .next t)
    (he : t.responses = s.responses ++ [.err e b]) : t.last = s.last ∧ t.lastValid = s.lastValid := by
  rcases exec_cache_cases h with ⟨hlast, hvalid, -⟩ | ⟨d, m, -, -, -, rfl⟩
  · exact ⟨hlast, hvalid⟩
  · simp at he

/-- The buffer an error carries is the one its command fixes (R159). -/
theorem exec_err_returns {i : Instr} {s t : State} {e : Error} {b : Option Bytes} (h : exec i s = .next t)
    (he : t.responses = s.responses ++ [.err e b]) : b = returnedOnError s i := by
  obtain ⟨r, hresp, hr⟩ := exec_isOutcomeOf h
  obtain rfl : r = .err e b := by simpa [he] using hresp.symm
  obtain ⟨-, -, hb⟩ := hr
  exact hb

/-! ### The statements -/

/-- Settles O52: an idle step changes nothing, and every command keeps the invariant. -/
theorem checksumErrorsStayNonzero : Obligations.ChecksumErrorsStayNonzero := by
  intro s t hinv h
  rcases step_cases h with ⟨-, rfl⟩ | ⟨r, rest, i, -, -, hexec⟩
  · exact hinv
  · have hinv' : ChecksumErrorsCarryNonzero { s with pending := rest } := hinv
    exact exec_keeps_checksumErrorsCarryNonzero hinv' hexec

/-- Settles O37: the one response of a command is an outcome its row allows. -/
theorem everyCommandEndsInOneOutcome : Obligations.EveryCommandEndsInOneOutcome := by
  intro i s
  obtain ⟨t, ht⟩ := exec_next i s
  obtain ⟨r, hresp, hr⟩ := exec_isOutcomeOf ht
  refine ⟨t, r, ht, hresp, statusCode_mem_mayAnswer hr, ?_, bufMax_ne_none_of_statusCode_eq_six hr⟩
  rintro e b rfl
  exact checksumError_ne_zero hr

/-- Settles O38: the fields no command writes, the cache that an error keeps, the buffer that the command fixes, and
the one read of a receive command. -/
theorem errorsWriteNoState : Obligations.ErrorsWriteNoState := by
  intro i s t e b h he
  obtain ⟨haddr, hcfg⟩ := exec_addr_cfg h
  obtain ⟨hlast, hvalid⟩ := exec_err_keeps_cache h he
  have hb := exec_err_returns h he
  refine ⟨haddr, hlast, hvalid, hcfg, exec_keeps_pending h, ?_, fun hne => hb.trans (returnedOnError_eq_none hne),
    fun d hr => ?_⟩
  · rintro buf d rfl
    exact hb
  · obtain ⟨hcalls, hrx, -⟩ := exec_calls_read hr h
    exact ⟨hcalls, hrx⟩

end Sys2Proof.Machine

/-! SUPPORT. Proofs of the statements about construction (70_reset_and_hazards): the instance is ready for any command
(R180), and the invariants hold of a state with no history. -/

namespace Sys2Proof.Machine

open Sys2Proof.Safety

/-! ### The command presented alone -/

/-- A step on a port that holds one encoded command performs that command and takes it off the port (R75, R180). -/
theorem step_encode (i : Instr) (s : State) :
    step { s with pending := [encode i] } = exec i { s with pending := [] } :=
  step_of_decode_ok (s := { s with pending := [encode i] }) rfl (decode_encode i)

/-! ### The invariants where nothing has happened yet -/

theorem writesAreFrames_of_calls_nil {s : State} (h : s.calls = []) : WritesAreFrames s := by
  intro f hf
  rw [h] at hf
  exact absurd hf List.not_mem_nil

theorem cacheIsAReadMessage_of_lastValid_false {s : State} (h : s.lastValid = false) : CacheIsAReadMessage s :=
  fun hv => absurd hv (Bool.eq_false_iff.mp h)

theorem checksumErrorsCarryNonzero_of_responses_nil {s : State} (h : s.responses = []) :
    ChecksumErrorsCarryNonzero s := by
  intro e b he
  rw [h] at he
  exact absurd he List.not_mem_nil

theorem readsWithinCapacity_of_calls_nil {s : State} (hcalls : s.calls = []) (hvalid : s.lastValid = false) :
    ReadsWithinCapacity s := by
  refine ⟨fun r hr => ?_, fun hv => absurd hv (Bool.eq_false_iff.mp hvalid)⟩
  rw [hcalls] at hr
  exact absurd hr List.not_mem_nil

/-! ### The statements -/

/-- Settles O1: construction writes these fields, and a step performs the presented command, which every state lets
end in a next state. -/
theorem constructionSetsTheState : Obligations.ConstructionSetsTheState := by
  intro cfg addr rx tx s
  refine ⟨rfl, rfl, rfl, rfl, rfl, rfl, rfl, rfl, fun i => ?_⟩
  rw [step_encode]
  exact exec_next i { s with pending := [] }

/-- Settles O54: construction records no call and no response and leaves the cache invalid. -/
theorem constructionMeetsTheInvariants : Obligations.ConstructionMeetsTheInvariants :=
  fun _ _ _ _ => ⟨writesAreFrames_of_calls_nil rfl, cacheIsAReadMessage_of_lastValid_false rfl,
    checksumErrorsCarryNonzero_of_responses_nil rfl, readsWithinCapacity_of_calls_nil rfl rfl⟩

end Sys2Proof.Machine
